-- ==== Sys2Proof/Word.lean ====
section
/-! DEFINITION. The words the PX612's ports and counters are made of. -/

namespace Sys2Proof

/-- One byte on a serial port (R146). -/
abbrev Byte := BitVec 8

/-- A two-byte field on a serial port: a gap, an offset, a width, a period or a budget (R1, section 9.7). -/
abbrev Half := BitVec 16

/-- A frame number, a target frame or a seal sequence; arithmetic on them is modulo 2^32 (R25, R70, R73). -/
abbrev Frame := BitVec 32

end Sys2Proof
end

