-- ==== Sys2Proof/Syntax.lean ====
section
/-! DEFINITION. The names of the part's ports, groups, legs and trip inputs, and `Instr`: one constructor for each row
of spec/opcode_table.json. The first thirty-two rows are the commands of the ports (section 9.6), with the port they are
issued on and their argument bytes as they stand on the wire; the other rows are the events of the ports, of the two
time bases and of the pins. -/

namespace Sys2Proof

/-- The three serial ports (chapter 9). -/
inductive Port where
  | p0 | p1 | p2
deriving DecidableEq, Repr

/-- The two timing groups (chapter 2). -/
inductive Group where
  | g0 | g1
deriving DecidableEq, Repr

/-- The six legs (chapter 1). -/
inductive Leg where
  | l0 | l1 | l2 | l3 | l4 | l5
deriving DecidableEq, Repr

/-- The two trip inputs TRIP0n and TRIP1n (chapter 6). -/
inductive TripInput where
  | trip0 | trip1
deriving DecidableEq, Repr

/-- The twelve bytes of a pattern record as STAGE LEG carries them (section 9.7); R17 and R159 say which are refused. -/
structure RawPattern where
  mode : Byte
  polarity : Byte
  gap : Half
  offsetA : Half
  widthA : Half
  offsetB : Half
  widthB : Half
deriving DecidableEq, Repr

/-- The five bytes of a timing record as STAGE GROUP carries them (section 9.7). -/
structure RawTiming where
  period : Half
  divider : Byte
  budget : Half
deriving DecidableEq, Repr

/-- One step of the part: a row of spec/opcode_table.json with its operands. A command row is the moment its check byte
is received and found correct (R149); `port` is the port it was received on (DESIGN CHOICE,
log entry 11). -/
inductive Instr where
  /-- IDENTIFY (R140). -/
  | identify (port : Port)
  /-- PORT STATUS of the named port (R141). -/
  | portStatus (port : Port) (named : Byte)
  /-- READ EVENT (R130, R131). -/
  | readEvent (port : Port)
  /-- SET NOTIFY (R134). -/
  | setNotify (port : Port) (mask : Byte)
  /-- PORT RESET of the named port (R155). -/
  | portReset (port : Port) (named : Byte)
  /-- DEVICE RESET (R157). -/
  | deviceReset (port : Port)
  /-- CLAIM of the items in the mask (R93). -/
  | claim (port : Port) (mask : Byte)
  /-- RELEASE of the items in the mask (R95). -/
  | release (port : Port) (mask : Byte)
  /-- SEIZE of the items in the mask (R96). -/
  | seize (port : Port) (mask : Byte)
  /-- SET FALLBACK of one item (R98). -/
  | setFallback (port : Port) (item value : Byte)
  /-- SET LIVENESS of the named port, in ms (R103). -/
  | setLiveness (port : Port) (named timeout : Byte)
  /-- READ LEASES (R109). -/
  | readLeases (port : Port)
  /-- OPEN SET for a group (R51). -/
  | openSet (port : Port) (group : Byte)
  /-- STAGE LEG (R53). -/
  | stageLeg (port : Port) (leg : Byte) (record : RawPattern)
  /-- STAGE GROUP (R54). -/
  | stageGroup (port : Port) (group : Byte) (record : RawTiming)
  /-- UNSTAGE one item (R56). -/
  | unstage (port : Port) (item : Byte)
  /-- ABANDON (R52). -/
  | abandon (port : Port)
  /-- SEAL with a target form and its value (R71). -/
  | seal (port : Port) (form : Byte) (value : Frame)
  /-- WITHDRAW a set (R84). -/
  | withdraw (port : Port) (setId : Byte)
  /-- ACK SET (R60). -/
  | ackSet (port : Port) (setId : Byte)
  /-- SET STATUS (R62). -/
  | setStatus (port : Port) (setId : Byte)
  /-- START a group (R29). -/
  | start (port : Port) (group : Byte)
  /-- STOP a group, NOW (0) or AT_END (1) (R30). -/
  | stop (port : Port) (group form : Byte)
  /-- CONFIGURE GROUP (R35). -/
  | configureGroup (port : Port) (group sync stopOutput : Byte)
  /-- ASSIGN LEG (R20). -/
  | assignLeg (port : Port) (leg group : Byte)
  /-- TRIP the groups in the mask (R115). -/
  | trip (port : Port) (mask : Byte)
  /-- CLEAR TRIP of a group (R120). -/
  | clearTrip (port : Port) (group : Byte)
  /-- MAP TRIP: an input's group mask and filter time (R114). -/
  | mapTrip (port : Port) (input mask time : Byte)
  /-- SET SAFE: a leg's safe levels and safe delay (R119). -/
  | setSafe (port : Port) (leg levelA levelB delay : Byte)
  /-- READ ACTIVE of an item (R142, R143). -/
  | readActive (port : Port) (item : Byte)
  /-- READ PENDING of an item (R144). -/
  | readPending (port : Port) (item : Byte)
  /-- READ OUTPUTS (R145). -/
  | readOutputs (port : Port)
  /-- A request received whole, its bytes CMD, LEN, arguments and CHK, that is answered CHECK, UNKNOWN or LENGTH (R149). -/
  | badRequest (port : Port) (bytes : List Byte)
  /-- The LEN byte of a request whose LEN is greater than 16 (R148). -/
  | malformed (port : Port) (cmd len : Byte)
  /-- SSx goes low (R147). -/
  | selectAsserted (port : Port)
  /-- SSx goes high; `whole` says that RCHK had been clocked out before it (R152). -/
  | selectReleased (port : Port) (whole : Bool)
  /-- The whole response of a READ EVENT, RCHK included, has been clocked out (R130, R131). -/
  | readEventCompleted (port : Port)
  /-- SSx goes high and ends the transaction of a self-issued PORT RESET (R155). -/
  | portResetEffect (port : Port) (whole : Bool)
  /-- SSx goes high and ends the transaction of a DEVICE RESET (R157). -/
  | deviceResetEffect (port : Port) (whole : Bool)
  /-- A port's time remaining reaches 0 (R104). -/
  | livenessExpiry (port : Port)
  /-- The group timer takes a fallback HALT notice (R37). -/
  | fallbackHalt (group : Group)
  /-- The start of a tick after tick 0 (R6, R24). -/
  | tick (group : Group)
  /-- Tick P−1 has elapsed (R24). -/
  | frameEnd (group : Group)
  /-- A recognised edge on the group's sync input (R32). -/
  | syncEdge (group : Group) (rising : Bool)
  /-- A trip input goes low (R112). -/
  | tripInputLow (input : TripInput)
  /-- The low time of a trip input reaches its filter time (R112). -/
  | tripInputQualified (input : TripInput)
  /-- A trip input goes high (R112). -/
  | tripInputHigh (input : TripInput)
  /-- A leg's safe wait reaches 0 (R118). -/
  | safeWaitExpiry (leg : Leg)
  /-- The monitor declares LOST (R122, R123). -/
  | clockLost
  /-- A 2 µs gap of REFCLK while the monitor reads LOST (R122). -/
  | restoreCountRestart
  /-- The monitor declares PRESENT (R122). -/
  | clockRestored
  /-- VDD rises above the release threshold with RESETn high; the straps SUPSEL1:0 are sampled (R162, R163). -/
  | powerOn (straps : BitVec 2)
  /-- VDD falls below the re-entry threshold (R162). -/
  | powerFail
  /-- RESETn has been low for 1 µs or more (R162). -/
  | resetnAsserted
  /-- RESETn goes high with VDD good; the straps are sampled (R162, R163). -/
  | resetnReleased (straps : BitVec 2)
  /-- The housekeeping oscillator is running; the part enters OPERATING (R162). -/
  | startUpComplete
deriving DecidableEq, Repr

end Sys2Proof
end

