-- ==== Sys2Proof/Config.lean ====
section
/-! DEFINITION. What the part fixes in numbers, and what the manual leaves free: each free value is an opaque
constant, so nothing can be proved of it. -/

namespace Sys2Proof

/-- Slots of the set table (R47). -/
def Config.tableSlots : Nat := 12

/-- Slots of the edit pool (R49). -/
def Config.poolSlots : Nat := 64

/-- PENDING and DONE sets a port may own (R47). -/
def Config.portSetLimit : Nat := 4

/-- Records an event queue holds (R126). -/
def Config.queueSlots : Nat := 12

/-- The top of an output's inactive count (R5). -/
def Config.countTop : Nat := 1023

/-- The farthest a target may lie ahead of its group's frame number (R73). -/
def Config.farthest : Nat := 65535

/-- Microseconds of the housekeeping oscillator in one step of the liveness time base (R101). -/
def Config.liveStep : Nat := 1000

/-- The times that are told in tenths of a microsecond, each with the ±10 % of the housekeeping oscillator: its own
microsecond, the 2 µs of a gap in REFCLK and the 100 µs of the restore count (R122, R165, section "Conventions"). -/
inductive HkoTime where
  | microsecond | gap | restore
deriving DecidableEq, Repr

/-- The first tenth with which a time may be up. The microsecond and the restore count begin with a tenth: 0.9 µs and 90 µs.
A gap begins with an edge of REFCLK somewhere in a tenth, so that the nineteenth tenth after it ends more than 1.8 µs and at
most 1.9 µs after the edge: edges closer together than 1.8 µs are never read as a gap (R165). -/
def Config.soonest : HkoTime → Nat
  | .microsecond => 9
  | .gap => 19
  | .restore => 900

/-- The tenth with which a time is up at the latest: 1.1 µs and 110 µs; and the twenty-second tenth after an edge of REFCLK
has ended wherever the next edge comes 2.2 µs or more after it, which is always read as a gap (R165). -/
def Config.latest : HkoTime → Nat
  | .microsecond => 11
  | .gap => 22
  | .restore => 1100

/-- What the board and the clocks can do that no row of the table stands for, one at a time (DESIGN CHOICE, log entry
1). -/
inductive Happening where
  /-- A tenth of a microsecond passes, on which the housekeeping oscillator's times are told (R101, R112, R118, R122). -/
  | oscillator
  /-- A rising edge of REFCLK (R165). -/
  | refclk
  /-- The pin SYNCg takes a level (R165). -/
  | syncPin (g : Group) (high : Bool)
  /-- The pin TRIPxn takes a level, which the next sample finds (R166). -/
  | tripPin (i : TripInput) (low : Bool)
  /-- The pin SCKx of a port takes a level, with the level that stands on SIx (R146). -/
  | sck (p : Port) (high data : Bool)
  /-- A group timer comes to a fallback HALT notice on its way to it (R37). -/
  | notice (g : Group)
deriving DecidableEq, Repr, Inhabited

/-- DESIGN CHOICE, log entry 1. Free value: what happens in the idle step with the given number; the manual ties neither
the clocks nor the hosts' lines to one another. -/
opaque Config.happens : Nat → Happening

/-- DESIGN CHOICE, log entry 5. Free value: when an item has an edit both in the OPEN set and in a PENDING set of the
port, R95 does not say which of the two a RELEASE refused IN_SET names; true names the PENDING one. The arguments are the
ids of the OPEN and of the PENDING set. -/
opaque Config.inSetNamesPending : Nat → Nat → Bool

/-- DESIGN CHOICE, log entry 6. Free value: the order in which events that fall due together are taken; the n-th choice made
says at which place an event goes among those already placed. -/
opaque Config.togetherOrder : Nat → Nat

/-- DESIGN CHOICE, log entry 20. Free value: behind an accepted STAGE or SEAL that comes together with the expiry of its
port's timer and is taken first, R58 and R65 have the expiry follow, and R102 has none occur; true lets it follow. The
arguments are the port and the number of the choice. -/
opaque Config.expiryFollows : Port → Nat → Bool

/-- DESIGN CHOICE, log entry 8. Free value: whether a time of the housekeeping oscillator that may be up with a tenth, and need
not be yet, is up with it; the manual gives such times ±10 %, and lets edges of REFCLK from 1.8 µs to 2.2 µs apart be read
either way (R165). The argument is the number of the choice. -/
opaque Config.timeUp : HkoTime → Nat → Bool

end Sys2Proof
end

