-- ==== Sys2Proof/Decode.lean ====
section
/-! DEFINITION. The request format of the serial ports: byte order, check byte, the command table of section 9.6, what a
request's bytes are answered with (R148, R149), the command a good request carries, and the encoder that writes a
command's request. spec/opcode_table.json gives no row any bits, so `decodeTableWord` answers none. -/

namespace Sys2Proof

/-- A two-byte field, most significant byte first (R146). -/
def be16 (h : Half) : List Byte := [h.extractLsb' 8 8, h.extractLsb' 0 8]

/-- A four-byte field, most significant byte first (R146). -/
def be32 (w : Frame) : List Byte :=
  [w.extractLsb' 24 8, w.extractLsb' 16 8, w.extractLsb' 8 8, w.extractLsb' 0 8]

/-- The two-byte field read from its bytes, most significant first (R146). -/
def half (b1 b0 : Byte) : Half := b1 ++ b0

/-- The four-byte field read from its bytes, most significant first (R146). -/
def word (b3 b2 b1 b0 : Byte) : Frame := b3 ++ b2 ++ b1 ++ b0

/-- The sum of bytes modulo 256 that the check bytes bring to 0 (R149, R150). -/
def byteSum : List Byte → Byte
  | [] => 0
  | b :: bs => b + byteSum bs

/-- The check byte for the bytes before it: with it their sum is 0 modulo 256 (R149, R150). -/
def checkByte (bytes : List Byte) : Byte := 0 - byteSum bytes

/-- The command table of section 9.6: each code with its LEN. -/
def commandTable : List (Nat × Nat) :=
  [(0x01, 0), (0x02, 1), (0x03, 0), (0x04, 1), (0x05, 1), (0x06, 0), (0x10, 1), (0x11, 1), (0x12, 1), (0x13, 2),
   (0x14, 2), (0x15, 0), (0x20, 1), (0x21, 13), (0x22, 6), (0x23, 1)] ++
  [(0x24, 5), (0x25, 0), (0x26, 1), (0x27, 1), (0x28, 1), (0x30, 1), (0x31, 2), (0x32, 3), (0x33, 2), (0x40, 1),
   (0x41, 1), (0x42, 3), (0x43, 4), (0x50, 1), (0x51, 1), (0x52, 0)]

/-- The LEN the command table gives for a code, none for a code it does not list. -/
def commandLength (cmd : Byte) : Option Nat := commandTable.lookup cmd.toNat

/-- The command of a port with the given code and argument bytes, laid out as the command's rule lists its arguments and
as section 9.7 lays out the records. -/
def parseCommand (p : Port) (code : Nat) (args : List Byte) : Option Instr :=
  match args with
  | [] =>
    match code with
    | 0x01 => some (.identify p)
    | 0x03 => some (.readEvent p)
    | 0x06 => some (.deviceReset p)
    | 0x15 => some (.readLeases p)
    | 0x25 => some (.abandon p)
    | 0x52 => some (.readOutputs p)
    | _ => none
  | [a] =>
    match code with
    | 0x02 => some (.portStatus p a)
    | 0x04 => some (.setNotify p a)
    | 0x05 => some (.portReset p a)
    | 0x10 => some (.claim p a)
    | 0x11 => some (.release p a)
    | 0x12 => some (.seize p a)
    | 0x20 => some (.openSet p a)
    | 0x23 => some (.unstage p a)
    | 0x26 => some (.withdraw p a)
    | 0x27 => some (.ackSet p a)
    | 0x28 => some (.setStatus p a)
    | 0x30 => some (.start p a)
    | 0x40 => some (.trip p a)
    | 0x41 => some (.clearTrip p a)
    | 0x50 => some (.readActive p a)
    | 0x51 => some (.readPending p a)
    | _ => none
  | [a, b] =>
    match code with
    | 0x13 => some (.setFallback p a b)
    | 0x14 => some (.setLiveness p a b)
    | 0x31 => some (.stop p a b)
    | 0x33 => some (.assignLeg p a b)
    | _ => none
  | [a, b, c] =>
    match code with
    | 0x32 => some (.configureGroup p a b c)
    | 0x42 => some (.mapTrip p a b c)
    | _ => none
  | [a, b, c, d] => if code = 0x43 then some (.setSafe p a b c d) else none
  | [a, b, c, d, e] => if code = 0x24 then some (.seal p a (word b c d e)) else none
  | [a, b, c, d, e, f] => if code = 0x22 then some (.stageGroup p a ⟨half b c, d, half e f⟩) else none
  | [a, m, q, g1, g0, oa1, oa0, wa1, wa0, ob1, ob0, wb1, wb0] =>
    if code = 0x21 then
      some (.stageLeg p a ⟨m, q, half g1 g0, half oa1 oa0, half wa1 wa0, half ob1 ob0, half wb1 wb0⟩)
    else none
  | _ => none

/-- Why a request received whole reaches no owning block (R149, cases 1 to 3). -/
inductive BadReason where
  | check | unknown | length
deriving DecidableEq, Repr

/-- What the bytes received in one assertion of select are (R148, R149). -/
inductive RequestClass where
  /-- Not yet a whole request, or bytes follow the check byte. -/
  | notWhole
  /-- LEN is greater than 16 (R148). -/
  | malformed
  /-- Whole, and answered by the port interface alone (R149, cases 1 to 3). -/
  | bad (reason : BadReason)
  /-- Whole and good: its command reaches the owning block (R149, case 4). -/
  | good (command : Instr)
deriving DecidableEq, Repr

/-- What the bytes of a request are on port `p`: MALFORMED on LEN alone (R148), then the first case of R149 that applies. -/
def classifyRequest (p : Port) (bytes : List Byte) : RequestClass :=
  match bytes with
  | cmd :: len :: rest =>
    if 16 < len.toNat then .malformed
    else if rest.length ≠ len.toNat + 1 then .notWhole
    else if byteSum bytes ≠ 0 then .bad .check
    else
      match commandLength cmd with
      | none => .bad .unknown
      | some n =>
        if n ≠ len.toNat then .bad .length
        else
          match parseCommand p cmd.toNat rest.dropLast with
          | some c => .good c
          | none => .bad .length
  | _ => .notWhole

/-- The code and argument bytes of a command of the ports (section 9.6), none for the rows that are no command. -/
def commandBytes : Instr → Option (Byte × List Byte)
  | .identify _ => some (0x01, [])
  | .portStatus _ a => some (0x02, [a])
  | .readEvent _ => some (0x03, [])
  | .setNotify _ a => some (0x04, [a])
  | .portReset _ a => some (0x05, [a])
  | .deviceReset _ => some (0x06, [])
  | .claim _ a => some (0x10, [a])
  | .release _ a => some (0x11, [a])
  | .seize _ a => some (0x12, [a])
  | .setFallback _ a b => some (0x13, [a, b])
  | .setLiveness _ a b => some (0x14, [a, b])
  | .readLeases _ => some (0x15, [])
  | .openSet _ a => some (0x20, [a])
  | .stageLeg _ a r =>
    some (0x21, a :: r.mode :: r.polarity :: (be16 r.gap ++ be16 r.offsetA ++ be16 r.widthA ++ be16 r.offsetB ++
      be16 r.widthB))
  | .stageGroup _ a r => some (0x22, a :: (be16 r.period ++ r.divider :: be16 r.budget))
  | .unstage _ a => some (0x23, [a])
  | .seal _ a v => some (0x24, a :: be32 v)
  | .abandon _ => some (0x25, [])
  | .withdraw _ a => some (0x26, [a])
  | .ackSet _ a => some (0x27, [a])
  | .setStatus _ a => some (0x28, [a])
  | .start _ a => some (0x30, [a])
  | .stop _ a b => some (0x31, [a, b])
  | .configureGroup _ a b c => some (0x32, [a, b, c])
  | .assignLeg _ a b => some (0x33, [a, b])
  | .trip _ a => some (0x40, [a])
  | .clearTrip _ a => some (0x41, [a])
  | .mapTrip _ a b c => some (0x42, [a, b, c])
  | .setSafe _ a b c d => some (0x43, [a, b, c, d])
  | .readActive _ a => some (0x50, [a])
  | .readPending _ a => some (0x51, [a])
  | .readOutputs _ => some (0x52, [])
  | .badRequest _ _ | .malformed _ _ _ | .selectAsserted _ | .selectReleased _ _ | .readEventCompleted _
  | .portResetEffect _ _ | .deviceResetEffect _ _ | .livenessExpiry _ | .fallbackHalt _ | .tick _ | .frameEnd _
  | .syncEdge _ _ | .tripInputLow _ | .tripInputQualified _ | .tripInputHigh _ | .safeWaitExpiry _ | .clockLost
  | .restoreCountRestart | .clockRestored | .powerOn _ | .powerFail | .resetnAsserted | .resetnReleased _
  | .startUpComplete => none

/-- A request as a host sends it: CMD, LEN, the argument bytes and CHK (R148). -/
def frameRequest (cmd : Byte) (args : List Byte) : List Byte :=
  let head := cmd :: BitVec.ofNat 8 args.length :: args
  head ++ [checkByte head]

/-- The request that carries a command of the ports, none for the rows that are no command. -/
def encodeRequest (c : Instr) : Option (List Byte) :=
  (commandBytes c).map fun (cmd, args) => frameRequest cmd args

/-- The port a command of the ports was issued on, none for the rows that are no command. -/
def commandPort : Instr → Option Port
  | .identify p | .portStatus p _ | .readEvent p | .setNotify p _ | .portReset p _ | .deviceReset p | .claim p _
  | .release p _ | .seize p _ | .setFallback p _ _ | .setLiveness p _ _ | .readLeases p | .openSet p _
  | .stageLeg p _ _ | .stageGroup p _ _ | .unstage p _ | .abandon p | .seal p _ _ | .withdraw p _ | .ackSet p _
  | .setStatus p _ | .start p _ | .stop p _ _ | .configureGroup p _ _ _ | .assignLeg p _ _ | .trip p _
  | .clearTrip p _ | .mapTrip p _ _ _ | .setSafe p _ _ _ _ | .readActive p _ | .readPending p _ | .readOutputs p =>
    some p
  | .badRequest _ _ | .malformed _ _ _ | .selectAsserted _ | .selectReleased _ _ | .readEventCompleted _
  | .portResetEffect _ _ | .deviceResetEffect _ _ | .livenessExpiry _ | .fallbackHalt _ | .tick _ | .frameEnd _
  | .syncEdge _ _ | .tripInputLow _ | .tripInputQualified _ | .tripInputHigh _ | .safeWaitExpiry _ | .clockLost
  | .restoreCountRestart | .clockRestored | .powerOn _ | .powerFail | .resetnAsserted | .resetnReleased _
  | .startUpComplete => none

/-- The command a word of the opcode table spells. The table gives no row any bits, so no word spells a command
(DEDUCED, log entry 12). -/
def decodeTableWord (_nbits _w : Nat) : Option Instr := none

end Sys2Proof
end

