-- ==== Sys2Proof/Machine/State.lean ====
section
/-! DEFINITION. Everything the manual says the part holds, as plain data, block by block, the queue of commands that are
waiting, and the state right after reset. -/

namespace Sys2Proof.Machine

/-- One value for each port. -/
structure PerPort (α : Type) where
  p0 : α
  p1 : α
  p2 : α
deriving DecidableEq, Repr

/-- One value for each group. -/
structure PerGroup (α : Type) where
  g0 : α
  g1 : α
deriving DecidableEq, Repr

/-- One value for each leg. -/
structure PerLeg (α : Type) where
  l0 : α
  l1 : α
  l2 : α
  l3 : α
  l4 : α
  l5 : α
deriving DecidableEq, Repr

/-- One value for each trip input. -/
structure PerInput (α : Type) where
  trip0 : α
  trip1 : α
deriving DecidableEq, Repr

/-- What can be leased and edited: the legs are items 0 to 5 and the groups 6 and 7 (R45, R92). -/
inductive Item where
  | leg (l : Leg)
  | group (g : Group)
deriving DecidableEq, Repr

/-- The modes of a leg (R1). -/
inductive LegMode where
  | off | single | complementary | exclusive
deriving DecidableEq, Repr

/-- The polarities of an output (R2). -/
inductive Polarity where
  | activeHigh | activeLow
deriving DecidableEq, Repr

/-- A leg's pattern record (R1). -/
structure PatternRecord where
  mode : LegMode
  polarityA : Polarity
  polarityB : Polarity
  gap : Nat
  offsetA : Nat
  widthA : Nat
  offsetB : Nat
  widthB : Nat
deriving DecidableEq, Repr

/-- A group's timing record: period in ticks, divider code and budget in frames, 0 for unlimited (R23, R24, R28). -/
structure TimingRecord where
  period : Nat
  divider : Nat
  budget : Nat
deriving DecidableEq, Repr

/-- The interlock states of an output (R5). -/
inductive Interlock where
  | inactive | waiting | active
deriving DecidableEq, Repr

/-- What the leg generator holds for one output (R5). -/
structure Output where
  /-- The interlock state (R5). -/
  state : Interlock
  /-- Whole ticks at the inactive level without interruption, up to 1023 (R5). -/
  count : Nat
  /-- The output went inactive part of the way through the tick under way, so that tick is not counted (R5;
  DEDUCED, log entry 14). -/
  cut : Bool
deriving DecidableEq, Repr

/-- What becomes of a leg whose holder is lost (R92, R99). -/
inductive LegFallback where
  | hold | off
deriving DecidableEq, Repr

/-- What becomes of a group whose holder is lost (R92, R99). -/
inductive GroupFallback where
  | run | halt
deriving DecidableEq, Repr

/-- One leg: its entry of the pattern table (R18), its outputs (R5), its safe levels (R111) and its lease (R92). -/
structure LegState where
  /-- The group the leg belongs to (R18). -/
  group : Group
  /-- The active record (R1, R18). -/
  record : PatternRecord
  outA : Output
  outB : Output
  /-- Safe level A is active (R111). -/
  safeA : Bool
  /-- Safe level B is active (R111). -/
  safeB : Bool
  /-- Safe delay in microseconds (R111). -/
  safeDelay : Nat
  /-- The safe wait under way, with the microseconds left (R111, R118). -/
  safeWait : Option Nat
  /-- The port that holds the lease (R92). -/
  holder : Option Port
  /-- The leg's fallback (R92). -/
  fallback : LegFallback
deriving DecidableEq, Repr

/-- The run states of a group (section 2.4). -/
inductive RunState where
  | stopped | armed | running | halting | tripped
deriving DecidableEq, Repr

/-- The sync modes of a group (R32, R35). -/
inductive SyncMode where
  | none | startRise | startFall | resyncRise | resyncFall | resyncBoth
deriving DecidableEq, Repr

/-- The stop-output modes of a group (R9, R10). -/
inductive StopOutput where
  | idle | hold
deriving DecidableEq, Repr

/-- The causes of a trip (R111). -/
inductive Cause where
  | input0 | input1 | command | clock
deriving DecidableEq, Repr

/-- A group's cause set: no order and no member twice (R111). -/
structure CauseSet where
  input0 : Bool
  input1 : Bool
  command : Bool
  clock : Bool
deriving DecidableEq, Repr

/-- One group: its timer (chapter 2), its cause set (R111), its lease (R92) and the notices on their way to it (R99). -/
structure GroupState where
  run : RunState
  /-- The frame number FN (R25). -/
  fn : Frame
  /-- The tick counter (R24). -/
  tick : Nat
  /-- The active timing (R23, R24, R28). -/
  timing : TimingRecord
  /-- The divider count: the REFCLK periods of the tick under way that have elapsed (R23, R44). -/
  division : Nat
  /-- The remaining budget (R28). -/
  remaining : Nat
  sync : SyncMode
  stopOutput : StopOutput
  causes : CauseSet
  /-- The port that holds the lease (R92). -/
  holder : Option Port
  /-- The group's fallback (R92). -/
  fallback : GroupFallback
  /-- Fallback HALT notices sent by the lease unit that the group timer has not yet taken (R37, R99; DEDUCED, log
  entry 10). -/
  haltNotices : Nat
deriving DecidableEq, Repr

/-- The filter of a trip input; QUALIFYING carries its low time in microseconds (R111, R112). -/
inductive Filter where
  | quiet
  | qualifying (lowTime : Nat)
  | asserted
deriving DecidableEq, Repr

/-- One trip input: its pin, its filter and its part of the trip map (R111, R114). -/
structure InputState where
  /-- The pin TRIPxn is low (DESIGN CHOICE, log entry 8). -/
  pinLow : Bool
  filter : Filter
  /-- The group mask (R111). -/
  mask : PerGroup Bool
  /-- The filter time in microseconds (R111). -/
  filterTime : Nat
deriving DecidableEq, Repr

/-- A sync input and the recognition of its edges: a level is recognised when it stands at two successive rising edges of
REFCLK (R165). -/
structure SyncState where
  /-- The pin SYNCg is high (DESIGN CHOICE, log entry 16). -/
  pinHigh : Bool
  /-- The level at the last rising edge of REFCLK. -/
  sample : Bool
  /-- The level last recognised. -/
  level : Bool
deriving DecidableEq, Repr

/-- The reference-clock monitor; LOST carries the restore count in tenths of a microsecond (R122). -/
inductive Monitor where
  | present
  | lost (restoreCount : Nat)
deriving DecidableEq, Repr

/-- Why a record does not fit a period (R13 to R16). -/
inductive CheckFail where
  | range | gap | overlap
deriving DecidableEq, Repr

/-- Why a PENDING set was cancelled (R45). -/
inductive CancelReason where
  | leaseLost | seized | tripped
deriving DecidableEq, Repr

/-- An edit: a whole record for one item (R46). -/
inductive Edit where
  | leg (l : Leg) (record : PatternRecord)
  | group (g : Group) (record : TimingRecord)
deriving DecidableEq, Repr

/-- The outcome of a DONE set, with the fields that go with it (R45). -/
inductive SetOutcome where
  | applied (frame : Frame)
  | failed (why : CheckFail) (item : Leg) (frame : Frame)
  | cancelled (why : CancelReason)
deriving DecidableEq, Repr

/-- The state of a set with the fields present in that state (R45). -/
inductive SetBody where
  | opened (edits : List Edit)
  | pending (edits : List Edit) (target : Frame) (seq : Frame)
  | done (target : Frame) (outcome : SetOutcome)
deriving DecidableEq, Repr

/-- A set record (R45). -/
structure ChangeSet where
  id : Nat
  owner : Port
  group : Group
  body : SetBody
deriving DecidableEq, Repr

/-- The reasons of a LEASE_LOST record (R127). -/
inductive LossReason where
  | timeout | seized
deriving DecidableEq, Repr

/-- The reasons of a GROUP_STATE record (section 2.4). -/
inductive GroupReason where
  | started | armed | syncStart | halting | fallbackHalt | stoppedNow | halted | budget | cleared
deriving DecidableEq, Repr

/-- An event record: each kind with the fields R127 gives it. -/
inductive Event where
  | setApplied (id : Nat) (g : Group) (frame : Frame)
  | setFailed (id : Nat) (why : CheckFail) (item : Leg) (frame : Frame)
  | setCancelled (id : Nat) (why : CancelReason)
  | leaseLost (item : Item) (why : LossReason)
  | groupState (g : Group) (why : GroupReason) (fn : Frame)
  | trip (g : Group) (cause : Cause)
  | clock (restored : Bool)
  | portReset (p : Port) (bySupervisor : Bool)
deriving DecidableEq, Repr

/-- The result codes (section 9.6). -/
inductive Result where
  | ok | unknown | length | check | badArg | notSupervisor | notHolder | held | noOpenSet | setOpen
  | portSetLimit | tableFull | poolFull | wrongGroup | itemPending | inSet | late | far | range | gap
  | overlap | groupState | noClock | tripActive | noSet | setState | emptySet | queueEmpty | truncated | malformed
deriving DecidableEq, Repr

/-- A response: its result and its data bytes; RLEN and RCHK follow from them (R150). -/
structure Response where
  result : Result
  data : List Byte
deriving DecidableEq, Repr

/-- What the completion or the release of a response does besides ending it (R130, R131, R155, R157). -/
inductive After where
  /-- Nothing. -/
  | none
  /-- READ EVENT returned the head record, which its completion removes (R130). -/
  | readHead
  /-- READ EVENT found the queue empty; completion clears the marker unless a record was discarded since (R131). -/
  | readEmpty (discarded : Bool)
  /-- The whole READ EVENT response has been clocked out. -/
  | completed
  /-- A PORT RESET of the port itself waits for the release (R155). -/
  | portReset
  /-- A DEVICE RESET waits for the release (R157). -/
  | deviceReset
deriving DecidableEq, Repr

/-- The transaction states of a port (R147). -/
inductive Txn where
  | deselected
  | request
  | response (resp : Response) (after : After)
  /-- DISCARD; `recorded` is true where its release records MALFORMED, false where R157 or R164 applies. -/
  | discard (recorded : Bool)
deriving DecidableEq, Repr

/-- The previous response of a port (R152). -/
inductive PrevResponse where
  | complete | cut
deriving DecidableEq, Repr

/-- The serial lines of a port (R146, R147). -/
structure SerialLine where
  /-- The pin SCKx is high (DESIGN CHOICE, log entry 16). -/
  clockHigh : Bool
  /-- The bytes of the request under way (R147). -/
  request : List Byte
  /-- The bits sampled of a byte not yet complete, the first one first (R146). -/
  bits : List Bool
  /-- The bits sampled since SSx went low. -/
  sampled : Nat
  /-- The bits placed on SOx since SSx went low. -/
  placed : Nat
deriving DecidableEq, Repr

/-- One port: its interface (chapter 9), its liveness (R101) and its event queue (R126). -/
structure PortState where
  /-- The pin SSx is low (DESIGN CHOICE, log entry 8). -/
  selectLow : Bool
  txn : Txn
  /-- The serial lines (R146). -/
  line : SerialLine
  prevResult : Result
  prevResponse : PrevResponse
  /-- The liveness timeout in milliseconds (R101). -/
  timeout : Nat
  /-- The liveness timer: RUNNING with the time remaining in milliseconds, or STOPPED (R101). -/
  timer : Option Nat
  /-- The event records, oldest first (R126). -/
  queue : List Event
  /-- The overrun marker (R126). -/
  overrun : Bool
  /-- The notify mask (R134). -/
  notify : Byte
deriving DecidableEq, Repr

/-- The conditions of the part (R162). -/
inductive Condition where
  | reset | startUp | operating
deriving DecidableEq, Repr

/-- Everything the part holds. -/
structure State where
  /-- RESET, START-UP or OPERATING (R162). -/
  condition : Condition
  /-- The supervisor value sampled from the straps (R154, R163). -/
  supervisor : Option Port
  /-- Tenths of the microsecond of the housekeeping oscillator that is under way (R118; log entry 8). -/
  hkoTenths : Nat
  /-- Microseconds since the last step of the liveness time base (R101). -/
  hkoMicros : Nat
  ports : PerPort PortState
  legs : PerLeg LegState
  groups : PerGroup GroupState
  inputs : PerInput InputState
  /-- The two sync inputs (R32, R165). -/
  syncs : PerGroup SyncState
  monitor : Monitor
  /-- Tenths of a microsecond since the last rising edge of REFCLK, or since the last gap was read (R122). -/
  refclkGap : Nat
  /-- The set table (R47): the sets that stand in it, the PENDING ones in the order their seals were taken, which with
  their targets is the order of the two commit queues (R69; DEDUCED, log entry 7). -/
  sets : List ChangeSet
  /-- The next set id (R48). -/
  nextId : Nat
  /-- The seal sequence count (R70). -/
  sealCount : Frame
  /-- The MODEL's own: how many free choices have been made (log entries 1 and 6). -/
  choices : Nat
  /-- The MODEL's own: the commands that are waiting, first in, first out. -/
  pending : List Instr
deriving DecidableEq, Repr

/-- No row of the table ends in a fault: the manual gives every command and event an effect, so nothing raises a fault. -/
inductive Fault where
deriving DecidableEq, Repr

/-- Why a command has no meaning in the model. -/
inductive Refusal where
  /-- Raised by `exec` for a row that has no meaning yet, with the row's mnemonic; safe. No row is left so. -/
  | notModelled (mnemonic : String)
deriving DecidableEq, Repr

/-- An output after power-on: INACTIVE, with the count at its top (R22). -/
def Output.atPowerOn : Output := { state := .inactive, count := 1023, cut := false }

/-- The record of every leg after reset (R22). -/
def PatternRecord.atReset : PatternRecord :=
  { mode := .off, polarityA := .activeHigh, polarityB := .activeHigh, gap := 0, offsetA := 0, widthA := 0,
    offsetB := 0, widthB := 0 }

/-- The timing of each group after reset (R43). -/
def TimingRecord.atReset : TimingRecord := { period := 1000, divider := 0, budget := 0 }

/-- A cause set with no member (R111). -/
def CauseSet.empty : CauseSet := { input0 := false, input1 := false, command := false, clock := false }

/-- A leg of group `g` after power-on (R22, R110, R125). -/
def LegState.atPowerOn (g : Group) : LegState :=
  { group := g, record := .atReset, outA := .atPowerOn, outB := .atPowerOn, safeA := false, safeB := false,
    safeDelay := 0, safeWait := none, holder := none, fallback := .off }

/-- A group after power-on (R43, R110, R125). -/
def GroupState.atPowerOn : GroupState :=
  { run := .stopped, fn := 0, tick := 0, timing := .atReset, division := 0, remaining := 0, sync := .none,
    stopOutput := .idle, causes := .empty, holder := none, fallback := .halt, haltNotices := 0 }

/-- A trip input after power-on, with its pin as the board holds it (R125). -/
def InputState.atPowerOn (pinLow : Bool) : InputState :=
  { pinLow := pinLow, filter := .quiet, mask := { g0 := true, g1 := true }, filterTime := 2 }

/-- A sync input with its pin at a level and nothing sampled: the recognised level is low (DESIGN CHOICE, log entry
16). -/
def SyncState.atPowerOn (pinHigh : Bool) : SyncState := { pinHigh := pinHigh, sample := false, level := false }

/-- The lines of a port on which nothing has been sent, with SCKx at a level (DESIGN CHOICE, log entry 4). -/
def SerialLine.atPowerOn (clockHigh : Bool) : SerialLine :=
  { clockHigh := clockHigh, request := [], bits := [], sampled := 0, placed := 0 }

/-- A port after power-on, with its pins as the host holds them (R110, R137, R158). -/
def PortState.atPowerOn (selectLow clockHigh : Bool) : PortState :=
  { selectLow := selectLow, txn := .deselected, line := .atPowerOn clockHigh, prevResult := .ok, prevResponse := .complete,
    timeout := 50, timer := none, queue := [], overrun := false, notify := 0xFF }

/-- The machine right after reset: the part in RESET, every block at its power-on values (R162), SSx and the trip pins
high, SCKx and the sync pins low, no command waiting (DESIGN CHOICE, log entries 4 and 16, for the supervisor, the serial
lines, the time base, the measure of REFCLK and the pins). -/
def State.reset : State :=
  { condition := .reset
    supervisor := none
    hkoTenths := 0
    hkoMicros := 0
    ports := ⟨.atPowerOn false false, .atPowerOn false false, .atPowerOn false false⟩
    legs := ⟨.atPowerOn .g0, .atPowerOn .g0, .atPowerOn .g0, .atPowerOn .g1, .atPowerOn .g1, .atPowerOn .g1⟩
    groups := ⟨.atPowerOn, .atPowerOn⟩
    inputs := ⟨.atPowerOn false, .atPowerOn false⟩
    syncs := ⟨.atPowerOn false, .atPowerOn false⟩
    refclkGap := 0
    monitor := .lost 0
    sets := []
    nextId := 1
    sealCount := 0
    choices := 0
    pending := [] }

end Sys2Proof.Machine
end

