-- ==== Sys2Proof/Machine/Ops.lean ====
section
/-! DEFINITION. The named operations over State that every block shares: reading and updating one port, leg, group or
input; raising event records (chapter 7); the questions put to the set table (R68) and the lease table (R92, R109); taking
a command at its check byte and answering it (R102, R149). -/

namespace Sys2Proof.Machine

/-! ### Tables -/

/-- The value of one port. -/
def PerPort.get {α : Type} (x : PerPort α) : Port → α
  | .p0 => x.p0
  | .p1 => x.p1
  | .p2 => x.p2

/-- Each port's value replaced by a function of the port and its value. -/
def PerPort.map {α β : Type} (f : Port → α → β) (x : PerPort α) : PerPort β :=
  ⟨f .p0 x.p0, f .p1 x.p1, f .p2 x.p2⟩

/-- The value of one group. -/
def PerGroup.get {α : Type} (x : PerGroup α) : Group → α
  | .g0 => x.g0
  | .g1 => x.g1

/-- Each group's value replaced by a function of the group and its value. -/
def PerGroup.map {α β : Type} (f : Group → α → β) (x : PerGroup α) : PerGroup β := ⟨f .g0 x.g0, f .g1 x.g1⟩

/-- The value of one leg. -/
def PerLeg.get {α : Type} (x : PerLeg α) : Leg → α
  | .l0 => x.l0
  | .l1 => x.l1
  | .l2 => x.l2
  | .l3 => x.l3
  | .l4 => x.l4
  | .l5 => x.l5

/-- Each leg's value replaced by a function of the leg and its value. -/
def PerLeg.map {α β : Type} (f : Leg → α → β) (x : PerLeg α) : PerLeg β :=
  ⟨f .l0 x.l0, f .l1 x.l1, f .l2 x.l2, f .l3 x.l3, f .l4 x.l4, f .l5 x.l5⟩

/-- The value of one trip input. -/
def PerInput.get {α : Type} (x : PerInput α) : TripInput → α
  | .trip0 => x.trip0
  | .trip1 => x.trip1

/-- Each input's value replaced by a function of the input and its value. -/
def PerInput.map {α β : Type} (f : TripInput → α → β) (x : PerInput α) : PerInput β :=
  ⟨f .trip0 x.trip0, f .trip1 x.trip1⟩

/-- The ports in order. -/
def allPorts : List Port := [.p0, .p1, .p2]

/-- The groups in order. -/
def allGroups : List Group := [.g0, .g1]

/-- The legs in ascending order. -/
def allLegs : List Leg := [.l0, .l1, .l2, .l3, .l4, .l5]

/-- The trip inputs in order. -/
def allInputs : List TripInput := [.trip0, .trip1]

/-- The items in ascending order: L0 to L5, then G0, then G1 (R92). -/
def allItems : List Item :=
  [.leg .l0, .leg .l1, .leg .l2, .leg .l3, .leg .l4, .leg .l5, .group .g0, .group .g1]

/-- The number of a port. -/
def portNum : Port → Nat
  | .p0 => 0
  | .p1 => 1
  | .p2 => 2

/-- The number of a group. -/
def groupNum : Group → Nat
  | .g0 => 0
  | .g1 => 1

/-- The number of a leg. -/
def legNum : Leg → Nat
  | .l0 => 0
  | .l1 => 1
  | .l2 => 2
  | .l3 => 3
  | .l4 => 4
  | .l5 => 5

/-- The number of a trip input. -/
def inputNum : TripInput → Nat
  | .trip0 => 0
  | .trip1 => 1

/-- The number of an item: its position in an item mask (R45). -/
def Item.num : Item → Nat
  | .leg l => legNum l
  | .group g => 6 + groupNum g

/-- Whether an item mask names an item. -/
def inMask (mask : Byte) (i : Item) : Bool := mask.getLsbD i.num

/-- The item mask of the items a test picks. -/
def maskOf (f : Item → Bool) : Byte :=
  BitVec.ofNat 8 ((f (.leg .l0)).toNat + 2 * (f (.leg .l1)).toNat + 4 * (f (.leg .l2)).toNat + 8 * (f (.leg .l3)).toNat +
    16 * (f (.leg .l4)).toNat + 32 * (f (.leg .l5)).toNat + 64 * (f (.group .g0)).toNat + 128 * (f (.group .g1)).toNat)

/-- What the state holds for one port. -/
def State.port (s : State) (p : Port) : PortState := s.ports.get p

/-- What the state holds for one leg. -/
def State.leg (s : State) (l : Leg) : LegState := s.legs.get l

/-- What the state holds for one group. -/
def State.group (s : State) (g : Group) : GroupState := s.groups.get g

/-- What the state holds for one trip input. -/
def State.input (s : State) (i : TripInput) : InputState := s.inputs.get i

/-- The state with every port updated. -/
def State.mapPorts (s : State) (f : Port → PortState → PortState) : State := { s with ports := s.ports.map f }

/-- The state with every leg updated. -/
def State.mapLegs (s : State) (f : Leg → LegState → LegState) : State := { s with legs := s.legs.map f }

/-- The state with both groups updated. -/
def State.mapGroups (s : State) (f : Group → GroupState → GroupState) : State := { s with groups := s.groups.map f }

/-- The state with both trip inputs updated. -/
def State.mapInputs (s : State) (f : TripInput → InputState → InputState) : State :=
  { s with inputs := s.inputs.map f }

/-- The state with one port updated. -/
def State.modPort (s : State) (p : Port) (f : PortState → PortState) : State :=
  s.mapPorts fun q v => if q = p then f v else v

/-- The state with one leg updated. -/
def State.modLeg (s : State) (l : Leg) (f : LegState → LegState) : State :=
  s.mapLegs fun k v => if k = l then f v else v

/-- The state with one group updated. -/
def State.modGroup (s : State) (g : Group) (f : GroupState → GroupState) : State :=
  s.mapGroups fun k v => if k = g then f v else v

/-- The state with one trip input updated. -/
def State.modInput (s : State) (i : TripInput) (f : InputState → InputState) : State :=
  s.mapInputs fun k v => if k = i then f v else v

/-- The state with every leg of one group updated. -/
def State.modLegsOf (s : State) (g : Group) (f : LegState → LegState) : State :=
  s.mapLegs fun _ v => if v.group = g then f v else v

/-- What the state holds for one sync input. -/
def State.syncInput (s : State) (g : Group) : SyncState := s.syncs.get g

/-- The state with one sync input updated. -/
def State.modSync (s : State) (g : Group) (f : SyncState → SyncState) : State :=
  { s with syncs := s.syncs.map fun k v => if k = g then f v else v }

/-- The part is in OPERATING (R162). -/
def State.operating (s : State) : Bool := decide (s.condition = .operating)

/-- The issuing port is the supervisor (R154). -/
def State.isSupervisor (s : State) (p : Port) : Bool := decide (s.supervisor = some p)

/-! ### Event queues -/

/-- A record was discarded while a QUEUE_EMPTY response is being sent: its completion then keeps the marker (R131). -/
def Txn.noteDiscard : Txn → Txn
  | .response r (.readEmpty _) => .response r (.readEmpty true)
  | t => t

/-- The queue of a port takes a record: it joins the end of the list, or is discarded from a full list and sets the
overrun marker (R126, R129). -/
def PortState.takeRecord (e : Event) (q : PortState) : PortState :=
  if Config.queueSlots ≤ q.queue.length then { q with overrun := true, txn := q.txn.noteDiscard }
  else { q with queue := q.queue ++ [e] }

/-- A record is raised to one port's queue. -/
def State.raise (s : State) (p : Port) (e : Event) : State := s.modPort p (PortState.takeRecord e)

/-- A record is raised to the queues of all three ports, a copy to each (R128). -/
def State.raiseAll (s : State) (e : Event) : State := s.mapPorts fun _ q => PortState.takeRecord e q

/-- Records are raised to one port's queue in the order given. -/
def State.raiseList (s : State) (p : Port) (es : List Event) : State := es.foldl (fun t e => t.raise p e) s

/-- Records are raised to the supervisor's queue where the supervisor is a port other than `p` (R105, R136). -/
def State.raiseToSupervisor (s : State) (p : Port) (es : List Event) : State :=
  match s.supervisor with
  | some q => if q = p then s else s.raiseList q es
  | none => s

/-- The set id a record names: 0 for a record that names none (R127). -/
def Event.setId : Event → Nat
  | .setApplied id _ _ | .setFailed id _ _ _ | .setCancelled id _ => id
  | .leaseLost _ _ | .groupState _ _ _ | .trip _ _ | .clock _ | .portReset _ _ => 0

/-- The record is a SET_APPLIED, SET_FAILED or SET_CANCELLED record (R132). -/
def Event.isSetRecord : Event → Bool
  | .setApplied _ _ _ | .setFailed _ _ _ _ | .setCancelled _ _ => true
  | .leaseLost _ _ | .groupState _ _ _ | .trip _ _ | .clock _ | .portReset _ _ => false

/-! ### The lease table -/

/-- The holder of an item (R92). -/
def State.holder (s : State) : Item → Option Port
  | .leg l => (s.leg l).holder
  | .group g => (s.group g).holder

/-- The port holds the item. -/
def State.holds (s : State) (p : Port) (i : Item) : Bool := decide (s.holder i = some p)

/-- The port holds at least one item. -/
def State.holdsAny (s : State) (p : Port) : Bool := allItems.any (s.holds p)

/-- The mask of all items the port holds. -/
def State.heldMask (s : State) (p : Port) : Byte := maskOf (s.holds p)

/-- Every item a test picks gets the given holder; the other items keep theirs. -/
def State.setHolders (s : State) (pick : Item → Bool) (h : Option Port) : State :=
  (s.mapLegs fun l v => if pick (.leg l) then { v with holder := h } else v).mapGroups
    fun g v => if pick (.group g) then { v with holder := h } else v

/-- The port comes to hold items: a STOPPED timer starts with the full timeout, unless the timeout is 0 (R101). -/
def State.startTimer (s : State) (p : Port) : State :=
  if s.holdsAny p && decide ((s.port p).timeout ≠ 0) && (s.port p).timer.isNone then
    s.modPort p fun q => { q with timer := some q.timeout }
  else s

/-- The port comes to hold no item: its timer stops (R101). -/
def State.stopTimerIfIdle (s : State) (p : Port) : State :=
  if s.holdsAny p then s else s.modPort p fun q => { q with timer := none }

/-! ### The set table and the edit pool -/

/-- The item an edit is for (R46). -/
def Edit.item : Edit → Item
  | .leg l _ => .leg l
  | .group g _ => .group g

/-- The edits a set holds: a DONE set holds none (R46). -/
def ChangeSet.edits (c : ChangeSet) : List Edit :=
  match c.body with
  | .opened es => es
  | .pending es _ _ => es
  | .done _ _ => []

/-- The set is OPEN. -/
def ChangeSet.isOpen (c : ChangeSet) : Bool :=
  match c.body with
  | .opened _ => true
  | .pending _ _ _ | .done _ _ => false

/-- The set is PENDING. -/
def ChangeSet.isPending (c : ChangeSet) : Bool :=
  match c.body with
  | .pending _ _ _ => true
  | .opened _ | .done _ _ => false

/-- The set is DONE. -/
def ChangeSet.isDone (c : ChangeSet) : Bool :=
  match c.body with
  | .done _ _ => true
  | .opened _ | .pending _ _ _ => false

/-- The target of a PENDING or DONE set, 0 for an OPEN one (R45, R62). -/
def ChangeSet.target (c : ChangeSet) : Frame :=
  match c.body with
  | .opened _ => 0
  | .pending _ t _ => t
  | .done t _ => t

/-- The set has an edit of the item. -/
def ChangeSet.hasEdit (c : ChangeSet) (i : Item) : Bool := c.edits.any fun e => decide (e.item = i)

/-- A PENDING set becomes DONE with an outcome: it keeps its target and drops its edits and its seal sequence (R45, R59).
A set in another state is left as it is. -/
def ChangeSet.finish (o : SetOutcome) (c : ChangeSet) : ChangeSet :=
  match c.body with
  | .pending _ t _ => { c with body := .done t o }
  | .opened _ | .done _ _ => c

/-- The edit slots in use: one for each edit of the OPEN and PENDING sets (R49). -/
def State.poolUsed (s : State) : Nat := (s.sets.map fun c => c.edits.length).sum

/-- The free edit slots (R49, R53). -/
def State.poolFree (s : State) : Nat := Config.poolSlots - s.poolUsed

/-- The port's OPEN set, if it owns one (R47). -/
def State.openSetOf (s : State) (p : Port) : Option ChangeSet :=
  s.sets.find? fun c => decide (c.owner = p) && c.isOpen

/-- The number of the port's PENDING sets (R47). -/
def State.pendingCount (s : State) (p : Port) : Nat := s.sets.countP fun c => decide (c.owner = p) && c.isPending

/-- The number of the port's DONE sets (R47). -/
def State.doneCount (s : State) (p : Port) : Nat := s.sets.countP fun c => decide (c.owner = p) && c.isDone

/-- The set with the id that the port owns (R60, R62, R84). -/
def State.ownSet (s : State) (p : Port) (id : Nat) : Option ChangeSet :=
  s.sets.find? fun c => decide (c.id = id) && decide (c.owner = p)

/-- The PENDING set that holds an edit of the item (R68, R144). -/
def State.pendingSetOf (s : State) (i : Item) : Option ChangeSet := s.sets.find? fun c => c.isPending && c.hasEdit i

/-- The set with the id is removed and its slots are freed (R47, R49). -/
def State.removeSet (s : State) (id : Nat) : State := { s with sets := s.sets.filter fun c => decide (c.id ≠ id) }

/-- The set with the id is rewritten. -/
def State.updateSet (s : State) (id : Nat) (f : ChangeSet → ChangeSet) : State :=
  { s with sets := s.sets.map fun c => if c.id = id then f c else c }

/-- Every PENDING set that a test picks is cancelled: it becomes DONE, and one SET_CANCELLED record for each goes to its
owner, in seal order (R59, R63, R64, R88). -/
def State.cancelSets (s : State) (pick : ChangeSet → Bool) (why : CancelReason) : State :=
  (s.sets.filter fun c => c.isPending && pick c).foldl (fun t c => t.raise c.owner (.setCancelled c.id why))
    { s with sets := s.sets.map fun c => if c.isPending && pick c then c.finish (.cancelled why) else c }

/-- The commit queue of a group: its PENDING sets in seal order (R69, R88). -/
def State.pendingIn (s : State) (g : Group) : List ChangeSet :=
  s.sets.filter fun c => c.isPending && decide (c.group = g)

/-- The distance of a set's target from its group's frame number (R69). -/
def State.distance (s : State) (c : ChangeSet) : Nat := (c.target - (s.group c.group).fn).toNat

/-- An id is in use while a set in the table or a SET record in a queue has it (R48). -/
def State.idInUse (s : State) (id : Nat) : Bool :=
  (s.sets.any fun c => decide (c.id = id)) ||
    allPorts.any fun p => (s.port p).queue.any fun e => e.isSetRecord && decide (e.setId = id)

/-- The id after an id: 255 is followed by 1 (R48). -/
def idAfter (id : Nat) : Nat := if id = 255 then 1 else id + 1

/-- The first id not in use from `id` on, within `fuel` steps (R48). -/
def State.freeIdFrom (s : State) : Nat → Nat → Nat
  | 0, id => id
  | fuel + 1, id => if s.idInUse id then s.freeIdFrom fuel (idAfter id) else id

/-- The id OPEN SET assigns (R48): the ids are 255, so 254 steps reach every one of them. -/
def State.newId (s : State) : Nat := s.freeIdFrom 254 s.nextId

/-! ### Taking and answering a command -/

/-- What the owner of a command gives back: the state it leaves and the response, with what the release or completion of
the response still brings about. -/
structure Reply where
  state : State
  resp : Response
  after : After

/-- The command is refused: the state is left as it is (R149). -/
def refuse (s : State) (r : Result) (data : List Byte) : Reply := { state := s, resp := { result := r, data := data }, after := .none }

/-- The command is answered OK. -/
def accept (s : State) (data : List Byte) : Reply :=
  { state := s, resp := { result := .ok, data := data }, after := .none }

/-- The port can take a request: the part is in OPERATING and the port in REQUEST (R147, R164). -/
def State.ready (s : State) (p : Port) : Bool := s.operating && decide ((s.port p).txn = .request)

/-- The lines of a port once a whole request has been clocked in: its bytes are stored, the last bit was sampled at a
rising edge, and as many bits of zeros stand on SOx (R146, R147, R148). -/
def SerialLine.holding (bytes : List Byte) : SerialLine :=
  { clockHigh := true, request := bytes, bits := [], sampled := 8 * bytes.length, placed := 8 * bytes.length }

/-- A good transaction: the request's bytes stand in the port, and the port's timer, if RUNNING, restarts (R102, R147). -/
def State.received (s : State) (p : Port) (bytes : List Byte) : State :=
  s.modPort p fun q => { q with line := .holding bytes, timer := q.timer.map fun _ => q.timeout }

/-- The port goes to RESPONSE with the response formed (R149). -/
def Reply.answer (p : Port) (r : Reply) : State :=
  r.state.modPort p fun q => { q with txn := .response r.resp r.after }

/-- The state in which the owner takes a command: its request received whole and good (R149). -/
def State.taking (s : State) (p : Port) (c : Instr) : State := s.received p ((encodeRequest c).getD [])

/-- A command of a port is taken at its check byte: the good transaction restarts the timer, the owner takes the command,
and the response is formed (R102, R149). A port that is not in REQUEST reads no request, so nothing happens (R147, R164;
DEDUCED, log entry 3). -/
def serve (p : Port) (c : Instr) (body : State → Reply) (s : State) : Host.Outcome State Fault Refusal :=
  if s.ready p then .next ((body (s.taking p c)).answer p) else .next s

/-- An accepted STAGE or SEAL and an expiry of its port that comes together with it, so that the timer stood at 0 in the state
`before` the command. Where the expiry follows it, the timer is at 0 still, and LIVENESS_EXPIRY takes the edit with its set or
cancels the sealed set (R58, R65, R106); where it does not, the restart stands and no expiry occurs (R102). Which of the two
is a free value (DESIGN CHOICE, log entry 20). -/
def Reply.leaveDue (follows : Bool) (before : State) (p : Port) (r : Reply) : Reply :=
  if r.resp.result = .ok ∧ (before.port p).timer = some 0 ∧ follows = true then
    { r with state := r.state.modPort p fun q => { q with timer := some 0 } }
  else r

/-- A STAGE or a SEAL of a port is taken at its check byte, and may have an expiry that comes together with it behind it
(R58, R65, R102, R149). -/
def serveSetWork (p : Port) (c : Instr) (body : State → Reply) (s : State) : Host.Outcome State Fault Refusal :=
  serve p c (fun t => (body t).leaveDue (Config.expiryFollows p s.choices) s p) s

end Sys2Proof.Machine
end

