-- ==== Sys2Proof/Machine/Interlock.lean ====
section
/-! DEFINITION. The leg generators: demand (R3), the interlock tick by tick (R5, R6, R8), entering STOPPED (R9, R10), the
forced OFF (R11, R19) and the safe levels (R118). -/

namespace Sys2Proof.Machine

/-- A window with offset `o` and width `w` in a frame of `period` ticks covers tick `t` when (t − o) mod P is less than w
(R1). -/
def covers (period o w t : Nat) : Bool := decide ((t + (period - o % period)) % period < w)

/-- The demand of output A on tick `t` (R3). -/
def demandA (r : PatternRecord) (period t : Nat) : Bool :=
  match r.mode with
  | .off => false
  | .single | .complementary | .exclusive => covers period r.offsetA r.widthA t

/-- The demand of output B on tick `t` (R3). -/
def demandB (r : PatternRecord) (period t : Nat) : Bool :=
  match r.mode with
  | .off | .single => false
  | .complementary => !covers period r.offsetA r.widthA t
  | .exclusive => covers period r.offsetB r.widthB t

/-- The advance of an output's inactive count at the start of a tick: by one, up to 1023, if the output was at its
inactive level throughout the whole of the previous tick (R5). -/
def Output.advance (o : Output) : Output :=
  if o.state = .active ∨ o.cut then { o with cut := false }
  else { o with count := min Config.countTop (o.count + 1) }

/-- Step 1 of R6: an output whose demand is inactive becomes INACTIVE, with count 0 if it was ACTIVE. -/
def Output.release (demand : Bool) (o : Output) : Output :=
  if demand then o
  else if o.state = .active then { o with state := .inactive, count := 0 }
  else { o with state := .inactive }

/-- Steps 2 and 3 of R6 for one output: `other` is the other output after step 1. -/
def Output.engage (demand otherDemand : Bool) (gap : Nat) (o other : Output) : Output :=
  if !demand then o
  else if o.state = .active then { o with count := 0 }
  else if other.state ≠ .active ∧ otherDemand = false ∧ gap ≤ other.count then { o with state := .active, count := 0 }
  else { o with state := .waiting }

/-- One evaluation of R6: the demands of both outputs against the outputs as the advance of the counts left them. -/
def settle (dA dB : Bool) (gap : Nat) (a b : Output) : Output × Output :=
  let a1 := a.release dA
  let b1 := b.release dB
  (a1.engage dA dB gap b1, b1.engage dB dA gap a1)

/-- The start of a tick for one leg (R5, R6): the counts advance unless this is the first tick of a run, and the
interlock is evaluated with the demand of tick `t`. -/
def LegState.tickStart (first : Bool) (period t : Nat) (l : LegState) : LegState :=
  let a := if first then { l.outA with cut := false } else l.outA.advance
  let b := if first then { l.outB with cut := false } else l.outB.advance
  let out := settle (demandA l.record period t) (demandB l.record period t) l.record.gap a b
  { l with outA := out.1, outB := out.2 }

/-- The start of tick `t` for every leg of a group, with the group's active period (R6). -/
def State.tickStart (s : State) (g : Group) (first : Bool) (t : Nat) : State :=
  s.modLegsOf g (LegState.tickStart first (s.group g).timing.period t)

/-- An output made INACTIVE at once, not at a tick start: an ACTIVE one gets count 0 and its tick is not counted, a
WAITING one keeps its count (R5, R9, R11, R118). -/
def Output.drop (o : Output) : Output :=
  if o.state = .active then { state := .inactive, count := 0, cut := true } else { o with state := .inactive }

/-- Both outputs of a leg made INACTIVE at once. -/
def LegState.dropOutputs (l : LegState) : LegState := { l with outA := l.outA.drop, outB := l.outB.drop }

/-- The legs of a group take its stop-output behaviour: IDLE makes both outputs INACTIVE (R9), HOLD keeps them (R10). -/
def State.stopOutputs (s : State) (g : Group) : State :=
  match (s.group g).stopOutput with
  | .idle => s.modLegsOf g LegState.dropOutputs
  | .hold => s

/-- The forced OFF record: mode OFF, windows 0, polarities and gap kept (R19). -/
def PatternRecord.forcedOff (r : PatternRecord) : PatternRecord :=
  { r with mode := .off, offsetA := 0, widthA := 0, offsetB := 0, widthB := 0 }

/-- A forced OFF write to a leg: the record changes, and both outputs become INACTIVE at once unless the leg's group is
TRIPPED (R11). -/
def LegState.forceOff (tripped : Bool) (l : LegState) : LegState :=
  let l1 := { l with record := l.record.forcedOff }
  if tripped then l1 else l1.dropOutputs

/-- The group is TRIPPED. -/
def State.tripped (s : State) (g : Group) : Bool := decide ((s.group g).run = .tripped)

/-- A forced OFF write to every leg a test picks (R11, R19). -/
def State.forceOffLegs (s : State) (pick : Leg → Bool) : State :=
  s.mapLegs fun k v => if pick k then v.forceOff (s.tripped v.group) else v

/-- An output whose safe level is active, while the other output is not ACTIVE: an ACTIVE one stays ACTIVE, another waits
the safe delay, and a delay of 0 has passed at once (R118). -/
def Output.engageSafe (delay : Nat) (o other : Output) : Output :=
  if o.state = .active then o
  else if delay = 0 ∧ other.state ≠ .active then { o with state := .active, count := 0 }
  else { o with state := .waiting }

/-- A leg passes to its safe levels: an output with an inactive safe level is dropped first, then the one with an active
safe level is engaged, and its safe wait runs while it is WAITING (R118, R119). -/
def LegState.toSafe (l : LegState) : LegState :=
  let a1 := if l.safeA then l.outA else l.outA.drop
  let b1 := if l.safeB then l.outB else l.outB.drop
  let a2 := if l.safeA then a1.engageSafe l.safeDelay b1 else a1
  let b2 := if l.safeB then b1.engageSafe l.safeDelay a1 else b1
  let waits := (l.safeA && decide (a2.state = .waiting)) || (l.safeB && decide (b2.state = .waiting))
  { l with outA := a2, outB := b2, safeWait := if waits then some l.safeDelay else none }

/-- A leg's safe wait has reached 0: the output with an active safe level becomes ACTIVE, through the interlock, which
keeps it from doing so while the other output is ACTIVE (R12, R118). -/
def LegState.endSafeWait (l : LegState) : LegState :=
  let rise (level : Bool) (o other : Output) : Output :=
    if level && decide (o.state = .waiting) && decide (other.state ≠ .active) then
      { o with state := .active, count := 0 }
    else o
  let a := rise l.safeA l.outA l.outB
  { l with outA := a, outB := rise l.safeB l.outB a, safeWait := none }

end Sys2Proof.Machine
end

