-- ==== Sys2Proof/Machine/Wire.lean ====
section
/-! DEFINITION. The codes of section 9.6 and the layouts of section 9.7: how states, results, records and readouts are
written as the data bytes of a response, and a response as the bytes clocked out (R150). -/

namespace Sys2Proof.Machine

/-- A number in one byte. -/
def byteOf (n : Nat) : Byte := BitVec.ofNat 8 n

/-- A number in two bytes, most significant first. -/
def halfOf (n : Nat) : List Byte := be16 (BitVec.ofNat 16 n)

/-- The code of a result (section 9.6). -/
def Result.code : Result → Byte
  | .ok => 0x00
  | .unknown => 0x01
  | .length => 0x02
  | .check => 0x03
  | .badArg => 0x04
  | .notSupervisor => 0x05
  | .notHolder => 0x06
  | .held => 0x07
  | .noOpenSet => 0x08
  | .setOpen => 0x09
  | .portSetLimit => 0x0A
  | .tableFull => 0x0B
  | .poolFull => 0x0C
  | .wrongGroup => 0x0D
  | .itemPending => 0x0E
  | .inSet => 0x0F
  | .late => 0x10
  | .far => 0x11
  | .range => 0x12
  | .gap => 0x13
  | .overlap => 0x14
  | .groupState => 0x15
  | .noClock => 0x16
  | .tripActive => 0x17
  | .noSet => 0x18
  | .setState => 0x19
  | .emptySet => 0x1A
  | .queueEmpty => 0x1B
  | .truncated => 0x1C
  | .malformed => 0x1D

/-- The bytes of a response: RESULT, RLEN, the data and RCHK (R150). -/
def Response.bytes (r : Response) : List Byte :=
  let head := r.result.code :: byteOf r.data.length :: r.data
  head ++ [checkByte head]

/-- A bit as a byte, 0 or 1. -/
def flagCode (b : Bool) : Byte := if b then 1 else 0

/-- A holder, port or owner: 0, 1, 2, or 0xFF for none (section 9.6). -/
def holderCode : Option Port → Byte
  | some p => byteOf (portNum p)
  | none => 0xFF

/-- An item's code (R45). -/
def Item.code (i : Item) : Byte := byteOf i.num

/-- A group's code. -/
def groupCode (g : Group) : Byte := byteOf (groupNum g)

/-- The code of a leg mode. -/
def LegMode.code : LegMode → Byte
  | .off => 0
  | .single => 1
  | .complementary => 2
  | .exclusive => 3

/-- The polarity byte: bit 0 for output A and bit 1 for output B, 1 for active-low (R159). -/
def polarityByte (a b : Polarity) : Byte :=
  byteOf ((if a = .activeLow then 1 else 0) + (if b = .activeLow then 2 else 0))

/-- The pattern record layout, 12 bytes. -/
def PatternRecord.bytes (r : PatternRecord) : List Byte :=
  r.mode.code :: polarityByte r.polarityA r.polarityB :: (halfOf r.gap ++ halfOf r.offsetA ++ halfOf r.widthA ++
    halfOf r.offsetB ++ halfOf r.widthB)

/-- The timing record layout, 5 bytes. -/
def TimingRecord.bytes (t : TimingRecord) : List Byte := halfOf t.period ++ byteOf t.divider :: halfOf t.budget

/-- The code of a run state. -/
def RunState.code : RunState → Byte
  | .stopped => 0
  | .armed => 1
  | .running => 2
  | .halting => 3
  | .tripped => 4

/-- The code of a sync mode (R35). -/
def SyncMode.code : SyncMode → Byte
  | .none => 0
  | .startRise => 1
  | .startFall => 2
  | .resyncRise => 3
  | .resyncFall => 4
  | .resyncBoth => 5

/-- The code of a stop-output mode (R35). -/
def StopOutput.code : StopOutput → Byte
  | .idle => 0
  | .hold => 1

/-- The cause set byte: bit 0 INPUT0, bit 1 INPUT1, bit 2 COMMAND, bit 3 CLOCK. -/
def CauseSet.code (c : CauseSet) : Byte :=
  byteOf (c.input0.toNat + 2 * c.input1.toNat + 4 * c.command.toNat + 8 * c.clock.toNat)

/-- The code of a filter state. -/
def Filter.code : Filter → Byte
  | .quiet => 0
  | .qualifying _ => 1
  | .asserted => 2

/-- The code of the monitor's state. -/
def Monitor.code : Monitor → Byte
  | .present => 0
  | .lost _ => 1

/-- The code of an interlock state. -/
def Interlock.code : Interlock → Byte
  | .inactive => 0
  | .waiting => 1
  | .active => 2

/-- The code of a leg's fallback (R98). -/
def LegFallback.code : LegFallback → Byte
  | .hold => 0
  | .off => 1

/-- The code of a group's fallback (R98). -/
def GroupFallback.code : GroupFallback → Byte
  | .run => 0
  | .halt => 1

/-- The reason code of a failed check (section 9.6). -/
def CheckFail.code : CheckFail → Byte
  | .range => 1
  | .gap => 2
  | .overlap => 3

/-- The result code that names a failed check (R16). -/
def CheckFail.result : CheckFail → Result
  | .range => .range
  | .gap => .gap
  | .overlap => .overlap

/-- The reason code of a cancellation. -/
def CancelReason.code : CancelReason → Byte
  | .leaseLost => 4
  | .seized => 5
  | .tripped => 6

/-- The reason code of a lost lease. -/
def LossReason.code : LossReason → Byte
  | .timeout => 7
  | .seized => 5

/-- The reason code of a GROUP_STATE record. -/
def GroupReason.code : GroupReason → Byte
  | .started => 8
  | .armed => 9
  | .syncStart => 10
  | .halting => 11
  | .fallbackHalt => 12
  | .stoppedNow => 13
  | .halted => 14
  | .budget => 15
  | .cleared => 16

/-- The reason code of a trip cause. -/
def Cause.code : Cause → Byte
  | .input0 => 17
  | .input1 => 18
  | .command => 19
  | .clock => 20

/-- The kind code of an event record; its position in the notify mask is one less (R134, section 9.6). -/
def Event.kind : Event → Nat
  | .setApplied _ _ _ => 1
  | .setFailed _ _ _ _ => 2
  | .setCancelled _ _ => 3
  | .leaseLost _ _ => 4
  | .groupState _ _ _ => 5
  | .trip _ _ => 6
  | .clock _ => 7
  | .portReset _ _ => 8

/-- The reason field of an event record, 0 where absent (R127). -/
def Event.reason : Event → Byte
  | .setApplied _ _ _ => 0
  | .setFailed _ why _ _ => why.code
  | .setCancelled _ why => why.code
  | .leaseLost _ why => why.code
  | .groupState _ why _ => why.code
  | .trip _ c => c.code
  | .clock restored => if restored then 22 else 21
  | .portReset _ bySupervisor => if bySupervisor then 24 else 23

/-- The object field of an event record, 0xFF where absent (R127). -/
def Event.object : Event → Byte
  | .setApplied _ g _ => groupCode g
  | .setFailed _ _ l _ => byteOf (legNum l)
  | .setCancelled _ _ => 0xFF
  | .leaseLost i _ => i.code
  | .groupState g _ _ => groupCode g
  | .trip g _ => groupCode g
  | .clock _ => 0xFF
  | .portReset p _ => byteOf (portNum p)

/-- The frame field of an event record, 0 where absent (R127). -/
def Event.frame : Event → Frame
  | .setApplied _ _ f => f
  | .setFailed _ _ _ f => f
  | .groupState _ _ f => f
  | .setCancelled _ _ | .leaseLost _ _ | .trip _ _ | .clock _ | .portReset _ _ => 0

/-- The event record layout, 8 bytes. -/
def Event.bytes (e : Event) : List Byte :=
  byteOf e.kind :: e.reason :: e.object :: byteOf e.setId :: be32 e.frame

/-- The state code of a set. -/
def ChangeSet.stateCode (c : ChangeSet) : Byte :=
  match c.body with
  | .opened _ => 0
  | .pending _ _ _ => 1
  | .done _ _ => 2

/-- The outcome code of a set, 0 while it has none. -/
def ChangeSet.outcomeCode (c : ChangeSet) : Byte :=
  match c.body with
  | .done _ (.applied _) => 1
  | .done _ (.failed _ _ _) => 2
  | .done _ (.cancelled _) => 3
  | .opened _ | .pending _ _ _ => 0

/-- The reason code of a set's outcome, 0 for none (R62). -/
def ChangeSet.reasonCode (c : ChangeSet) : Byte :=
  match c.body with
  | .done _ (.failed why _ _) => why.code
  | .done _ (.cancelled why) => why.code
  | .done _ (.applied _) | .opened _ | .pending _ _ _ => 0

/-- The failing item of a FAILED set, 0xFF otherwise (R62; in the response of ACK SET the 0xFF is a DESIGN CHOICE, log entry
15). -/
def ChangeSet.failingItem (c : ChangeSet) : Byte :=
  match c.body with
  | .done _ (.failed _ l _) => byteOf (legNum l)
  | .done _ (.applied _) | .done _ (.cancelled _) | .opened _ | .pending _ _ _ => 0xFF

/-- The frame of application of an APPLIED or FAILED set, 0 otherwise (R62). -/
def ChangeSet.outcomeFrame (c : ChangeSet) : Frame :=
  match c.body with
  | .done _ (.applied f) => f
  | .done _ (.failed _ _ f) => f
  | .done _ (.cancelled _) | .opened _ | .pending _ _ _ => 0

/-- The set status layout, 15 bytes (R62). -/
def ChangeSet.statusBytes (c : ChangeSet) : List Byte :=
  [byteOf c.id, groupCode c.group, c.stateCode, byteOf c.edits.length] ++ be32 c.target ++
    [c.outcomeCode, c.reasonCode, c.failingItem] ++ be32 c.outcomeFrame

end Sys2Proof.Machine
end

