-- ==== Sys2Proof/Machine/Checks.lean ====
section
/-! DEFINITION. The period-dependent checks of section 1.4 and the validation of a set against its group, made at SEAL (R74)
and at application (R79). -/

namespace Sys2Proof.Machine

/-- The RANGE check fails (R13). -/
def rangeFails (r : PatternRecord) (period : Nat) : Bool :=
  decide (period ≤ r.offsetA) || decide (period < r.widthA) || decide (period ≤ r.offsetB) || decide (period < r.widthB)

/-- The GAP check of a COMPLEMENTARY record fails (R14). -/
def complementaryGapFails (r : PatternRecord) (period : Nat) : Bool :=
  decide (0 < r.widthA) && decide (r.widthA < period) &&
    (decide (r.widthA ≤ r.gap) || decide (period - r.widthA ≤ r.gap))

/-- Some tick of the frame lies in both windows (R15). -/
def windowsOverlap (r : PatternRecord) (period : Nat) : Bool :=
  (List.range period).any fun t => covers period r.offsetA r.widthA t && covers period r.offsetB r.widthB t

/-- The ticks from the first tick after a window with offset `o` and width `w` up to the first tick of the window that
opens at `next`: (next − o − w) mod P (R15). -/
def circularDistance (period o w next : Nat) : Nat := (next + (period - (o + w) % period)) % period

/-- The GAP check of an EXCLUSIVE record fails (R15). -/
def exclusiveGapFails (r : PatternRecord) (period : Nat) : Bool :=
  decide (circularDistance period r.offsetA r.widthA r.offsetB < r.gap) ||
    decide (circularDistance period r.offsetB r.widthB r.offsetA < r.gap)

/-- The first check that a record fails against a period, none where it passes (R16). -/
def checkRecord (r : PatternRecord) (period : Nat) : Option CheckFail :=
  if rangeFails r period then some .range
  else
    match r.mode with
    | .off | .single => none
    | .complementary => if complementaryGapFails r period then some .gap else none
    | .exclusive =>
      if r.widthA = 0 ∨ r.widthB = 0 then none
      else if windowsOverlap r period then some .overlap
      else if exclusiveGapFails r period then some .gap
      else none

/-- The record the edits stage for a leg. -/
def stagedLeg (es : List Edit) (l : Leg) : Option PatternRecord :=
  es.findSome? fun e =>
    match e with
    | .leg k r => if k = l then some r else none
    | .group _ _ => none

/-- The timing the edits stage for a group. -/
def stagedTiming (es : List Edit) (g : Group) : Option TimingRecord :=
  es.findSome? fun e =>
    match e with
    | .leg _ _ => none
    | .group k t => if k = g then some t else none

/-- The period a set's legs are checked against: that of its group edit, else the group's active period (R74, R79). -/
def State.periodFor (s : State) (g : Group) (es : List Edit) : Nat :=
  match stagedTiming es g with
  | some t => t.period
  | none => (s.group g).timing.period

/-- The record a leg is checked with: its staged record, else its active record (R74, R79). -/
def State.recordFor (s : State) (es : List Edit) (l : Leg) : PatternRecord := (stagedLeg es l).getD (s.leg l).record

/-- The validation of a set's edits: every leg of the group in ascending order, each with its staged or active record,
against the projected period; the first failure and its leg (R16, R74, R79). -/
def State.validate (s : State) (g : Group) (es : List Edit) : Option (CheckFail × Leg) :=
  allLegs.findSome? fun l =>
    if (s.leg l).group = g then (checkRecord (s.recordFor es l) (s.periodFor g es)).map fun f => (f, l) else none

end Sys2Proof.Machine
end

