-- ==== Sys2Proof/Machine/Operands.lean ====
section
/-! DEFINITION. The argument forms of the commands: each reads an argument as it stands on the wire and answers none
where the command's rule refuses it BAD_ARG (R159 and the argument tables of the commands). -/

namespace Sys2Proof.Machine

/-- A port argument, 0 to 2. -/
def portArg (b : Byte) : Option Port :=
  match b.toNat with
  | 0 => some .p0
  | 1 => some .p1
  | 2 => some .p2
  | _ => none

/-- A group argument, 0 or 1. -/
def groupArg (b : Byte) : Option Group :=
  match b.toNat with
  | 0 => some .g0
  | 1 => some .g1
  | _ => none

/-- A leg argument, 0 to 5. -/
def legArg (b : Byte) : Option Leg :=
  match b.toNat with
  | 0 => some .l0
  | 1 => some .l1
  | 2 => some .l2
  | 3 => some .l3
  | 4 => some .l4
  | 5 => some .l5
  | _ => none

/-- An item argument, 0 to 7 (R45). -/
def itemArg (b : Byte) : Option Item :=
  match b.toNat with
  | 6 => some (.group .g0)
  | 7 => some (.group .g1)
  | _ => (legArg b).map .leg

/-- A trip input argument, 0 or 1 (R114). -/
def inputArg (b : Byte) : Option TripInput :=
  match b.toNat with
  | 0 => some .trip0
  | 1 => some .trip1
  | _ => none

/-- A two-valued argument, 0 or 1 (R30, R98, R119). -/
def flagArg (b : Byte) : Option Bool :=
  match b.toNat with
  | 0 => some false
  | 1 => some true
  | _ => none

/-- A group mask, 0 to 3: bit 0 for G0 and bit 1 for G1 (R114, R115). -/
def groupMaskArg (b : Byte) : Option (PerGroup Bool) :=
  if b.toNat ≤ 3 then some { g0 := b.getLsbD 0, g1 := b.getLsbD 1 } else none

/-- A sync mode argument (R35). -/
def syncArg (b : Byte) : Option SyncMode :=
  match b.toNat with
  | 0 => some .none
  | 1 => some .startRise
  | 2 => some .startFall
  | 3 => some .resyncRise
  | 4 => some .resyncFall
  | 5 => some .resyncBoth
  | _ => none

/-- A stop-output argument (R35). -/
def stopOutputArg (b : Byte) : Option StopOutput :=
  match b.toNat with
  | 0 => some .idle
  | 1 => some .hold
  | _ => none

/-- A leg mode code (section 9.6). -/
def modeArg (b : Byte) : Option LegMode :=
  match b.toNat with
  | 0 => some .off
  | 1 => some .single
  | 2 => some .complementary
  | 3 => some .exclusive
  | _ => none

/-- The polarity of one output: bit 0 of the polarity byte gives output A and bit 1 output B (R159). -/
def polarityBit (b : Byte) (i : Nat) : Polarity := if b.getLsbD i then .activeLow else .activeHigh

/-- The format checks of a pattern record (R17, R159): none where the record is refused BAD_ARG. -/
def patternArg (r : RawPattern) : Option PatternRecord :=
  match modeArg r.mode with
  | none => none
  | some mode =>
    if 3 < r.polarity.toNat ∨ 1023 < r.gap.toNat ∨ (mode ≠ .exclusive ∧ (r.offsetB ≠ 0 ∨ r.widthB ≠ 0)) then none
    else
      some
        { mode := mode, polarityA := polarityBit r.polarity 0, polarityB := polarityBit r.polarity 1,
          gap := r.gap.toNat, offsetA := r.offsetA.toNat, widthA := r.widthA.toNat, offsetB := r.offsetB.toNat,
          widthB := r.widthB.toNat }

/-- The format checks of a timing record (R54): none where the record is refused BAD_ARG. -/
def timingArg (r : RawTiming) : Option TimingRecord :=
  if r.period.toNat < 4 ∨ 7 < r.divider.toNat then none
  else some { period := r.period.toNat, divider := r.divider.toNat, budget := r.budget.toNat }

/-- The target forms of SEAL (R71). -/
inductive SealForm where
  | next
  | after (k : Nat)
  | at (f : Frame)
deriving DecidableEq, Repr

/-- The target form of SEAL: none for a form greater than 2 and for AFTER with a count outside 1 to 65535; the value is
not examined for NEXT (R71). -/
def sealArg (form : Byte) (value : Frame) : Option SealForm :=
  match form.toNat with
  | 0 => some .next
  | 1 => if 1 ≤ value.toNat ∧ value.toNat ≤ Config.farthest then some (.after value.toNat) else none
  | 2 => some (.at value)
  | _ => none

end Sys2Proof.Machine
end

