-- ==== Sys2Proof/Machine/Commit.lean ====
section
/-! DEFINITION. The commit unit family: SEAL and WITHDRAW (chapter 4). -/

namespace Sys2Proof.Machine

/-- The target a form names against the group's FN, or LATE or FAR (R73). -/
def resolveTarget (fn : Frame) : SealForm → Except Result Frame
  | .next => .ok (fn + 1)
  | .after k => .ok (fn + BitVec.ofNat 32 k)
  | .at f =>
    let d := (f - fn).toNat
    if 1 ≤ d ∧ d ≤ Config.farthest then .ok f
    else if Config.farthest < d ∧ d < 2 ^ 31 then .error .far
    else .error .late

/-- The first item of the edit list, in its order, with an edit in a PENDING set, and that set's id (R72). -/
def State.itemPending (s : State) (c : ChangeSet) : Option (Item × Nat) :=
  c.edits.findSome? fun e => (s.pendingSetOf e.item).map fun k => (e.item, k.id)

/-- The effects of an accepted SEAL, one event: the seal sequence advances and is written with the target into the set,
which becomes PENDING and is the last sealed (R69, R70, R75). -/
def State.sealSet (s : State) (c : ChangeSet) (target : Frame) : State :=
  { s with
    sealCount := s.sealCount + 1
    sets := (s.sets.filter fun k => decide (k.id ≠ c.id)) ++
      [{ c with body := .pending c.edits target (s.sealCount + 1) }] }

/-- SEAL (R71): the checks in the order of its table, with the data each refusal names. -/
def sealBody (p : Port) (form : Byte) (value : Frame) (s : State) : Reply :=
  match sealArg form value with
  | none => refuse s .badArg []
  | some f =>
    match s.openSetOf p with
    | none => refuse s .noOpenSet []
    | some c =>
      let fn := (s.group c.group).fn
      if c.edits = [] then refuse s .emptySet [byteOf c.id]
      else if (s.group c.group).run = .tripped then
        refuse s .groupState [byteOf c.id, (s.group c.group).run.code]
      else if Config.portSetLimit ≤ s.pendingCount p + s.doneCount p then
        refuse s .portSetLimit [byteOf c.id, byteOf (s.pendingCount p), byteOf (s.doneCount p)]
      else
        match s.itemPending c with
        | some (i, id) => refuse s .itemPending [byteOf c.id, i.code, byteOf id]
        | none =>
          match resolveTarget fn f with
          | .error r => refuse s r (byteOf c.id :: be32 fn)
          | .ok target =>
            match s.validate c.group c.edits with
            | some (why, l) =>
              refuse s why.result (byteOf c.id :: byteOf (legNum l) :: halfOf (s.periodFor c.group c.edits))
            | none =>
              accept (s.sealSet c target) ([byteOf c.id, groupCode c.group] ++ be32 target ++ be32 fn)

/-- SEAL (R65, R71). -/
def execSeal (p : Port) (form : Byte) (value : Frame) (s : State) : Host.Outcome State Fault Refusal :=
  serveSetWork p (.seal p form value) (sealBody p form value) s

/-- WITHDRAW (R84). -/
def withdrawBody (p : Port) (setId : Byte) (s : State) : Reply :=
  match s.ownSet p setId.toNat with
  | none => refuse s .noSet []
  | some c =>
    if c.isPending then accept (s.removeSet c.id) ([byteOf c.id, groupCode c.group] ++ be32 c.target)
    else refuse s .setState c.statusBytes

/-- WITHDRAW (R84). -/
def execWithdraw (p : Port) (setId : Byte) (s : State) : Host.Outcome State Fault Refusal :=
  serve p (.withdraw p setId) (withdrawBody p setId) s

end Sys2Proof.Machine
end

