-- ==== Sys2Proof/Machine/Frames.lean ====
section
/-! DEFINITION. Frame starts and end boundaries: the application of the due sets (R78 to R83), the frame start as one event
(R26), the budget (R28) and the frame end (R24, R27, R31, R34). -/

namespace Sys2Proof.Machine

/-- The edits of a passing set are written together: each leg edit replaces its leg's active record whole, and a group
edit the group's timing together; the new budget is what an ordinary frame start loads into the remaining count
(R28, R80, R82; DEDUCED, log entry 13). -/
def State.writeEdits (s : State) (g : Group) (es : List Edit) : State :=
  (s.mapLegs fun l v => match stagedLeg es l with | some r => { v with record := r } | none => v).modGroup g
    fun v => match stagedTiming es g with | some t => { v with timing := t, remaining := t.budget } | none => v

/-- One due set is taken at the frame start of `f`: it is validated against the state the sets before it have left, and
applied whole or not at all; it becomes DONE, and its record goes to its owner (R79, R80, R81). -/
def State.takeDueSet (g : Group) (f : Frame) (s : State) (c : ChangeSet) : State :=
  match s.validate g c.edits with
  | none =>
    ((s.writeEdits g c.edits).updateSet c.id (ChangeSet.finish (.applied f))).raise c.owner (.setApplied c.id g f)
  | some (why, l) => (s.updateSet c.id (ChangeSet.finish (.failed why l f))).raise c.owner (.setFailed c.id why l f)

/-- The sets due at frame `f` of a group, in seal order (R78). -/
def State.dueSets (s : State) (g : Group) (f : Frame) : List ChangeSet :=
  (s.pendingIn g).filter fun c => decide (c.target = f)

/-- The commit unit's part of a frame start: every due set, one at a time, in seal order (R78, R83). -/
def State.commitFrame (s : State) (g : Group) (f : Frame) : State :=
  (s.dueSets g f).foldl (State.takeDueSet g f) s

/-- A frame start, one event of the group timer (R26): FN advances (R25), the due sets are taken, a start from rest loads
the remaining budget (R28), the group is RUNNING on tick 0 with its division begun anew (R23, R44), and the legs are
evaluated, their counts advanced unless the start is from rest (R5, R8). -/
def State.frameStart (s : State) (g : Group) (fromRest : Bool) : State :=
  let s1 := s.modGroup g fun v => { v with fn := v.fn + 1 }
  let s2 := s1.commitFrame g (s1.group g).fn
  let s3 := s2.modGroup g fun v =>
    { v with run := .running, tick := 0, division := 0, remaining := if fromRest then v.timing.budget else v.remaining }
  s3.tickStart g fromRest 0

/-- A group enters STOPPED: its tick counter goes to 0, its legs take the stop-output behaviour, and the GROUP_STATE
record of the reason goes to all queues with the FN left as it is (R9, R10, R27, R30). -/
def State.enterStopped (s : State) (g : Group) (why : GroupReason) : State :=
  ((s.modGroup g fun v => { v with run := .stopped, tick := 0, division := 0 }).stopOutputs g).raiseAll
    (.groupState g why (s.group g).fn)

/-- A frame end of a RUNNING or HALTING group, natural or at a resync edge: with a budget, the remaining count decreases
first; a count of 0 or a HALTING group makes it an end boundary, and otherwise an ordinary frame start follows
(R26, R27, R28, R31). -/
def State.endFrame (s : State) (g : Group) : State :=
  let budgeted := decide ((s.group g).timing.budget ≠ 0)
  let s1 := s.modGroup g fun v => { v with remaining := if budgeted then v.remaining - 1 else v.remaining }
  if budgeted && decide ((s1.group g).remaining = 0) then s1.enterStopped g .budget
  else if (s1.group g).run = .halting then s1.enterStopped g .halted
  else s1.frameStart g false

/-- The group's ticks run (R23). -/
def State.ticking (s : State) (g : Group) : Bool :=
  decide ((s.group g).run = .running) || decide ((s.group g).run = .halting)

end Sys2Proof.Machine
end

