-- ==== Sys2Proof/Machine/Trips.lean ====
section
/-! DEFINITION. Tripping a group (R116, R117) and what trips it: an input that reaches ASSERTED (R112) and the loss of the
reference clock (R123). -/

namespace Sys2Proof.Machine

/-- A cause is a member of a cause set. -/
def CauseSet.has (c : CauseSet) : Cause → Bool
  | .input0 => c.input0
  | .input1 => c.input1
  | .command => c.command
  | .clock => c.clock

/-- A cause set with a cause added. -/
def CauseSet.add (c : CauseSet) : Cause → CauseSet
  | .input0 => { c with input0 := true }
  | .input1 => { c with input1 := true }
  | .command => { c with command := true }
  | .clock => { c with clock := true }

/-- The trip of a group that is not TRIPPED, one event (R116): the cause is written, the timer stops in TRIPPED with its
tick counter kept (R38), the group's PENDING sets are cancelled (R88), its legs pass to their safe levels (R118) and the
TRIP record goes to all queues. -/
def State.firstTrip (s : State) (g : Group) (c : Cause) : State :=
  (((s.modGroup g fun v => { v with run := .tripped, causes := CauseSet.empty.add c }).cancelSets
    (fun k => decide (k.group = g)) .tripped).modLegsOf g LegState.toSafe).raiseAll (.trip g c)

/-- A cause reaches a group that is already TRIPPED: a new cause is added and raises a TRIP record (R117). -/
def State.addCause (s : State) (g : Group) (c : Cause) : State :=
  if (s.group g).causes.has c then s
  else (s.modGroup g fun v => { v with causes := v.causes.add c }).raiseAll (.trip g c)

/-- A cause trips a group (R116, R117). -/
def State.tripGroup (s : State) (g : Group) (c : Cause) : State :=
  if s.tripped g then s.addCause g c else s.firstTrip g c

/-- A cause trips the groups a test picks, G0 first (R115, R116). -/
def State.tripGroups (s : State) (pick : Group → Bool) (c : Cause) : State :=
  let s1 := if pick .g0 then s.tripGroup .g0 c else s
  if pick .g1 then s1.tripGroup .g1 c else s1

/-- The cause an input trips with (R112). -/
def inputCause : TripInput → Cause
  | .trip0 => .input0
  | .trip1 => .input1

/-- An input's filter reaches ASSERTED and trips every group in the input's mask (R112). -/
def State.assertInput (s : State) (i : TripInput) : State :=
  (s.modInput i fun v => { v with filter := .asserted }).tripGroups (s.input i).mask.get (inputCause i)

/-- The loss of the reference clock concerns a group: every group but a STOPPED one (R39, R123). -/
def State.lossTrips (s : State) (g : Group) : Bool := decide ((s.group g).run ≠ .stopped)

end Sys2Proof.Machine
end

