-- ==== Sys2Proof/Machine/Resets.lean ====
section
/-! DEFINITION. What ends a port's share of the part and what ends a transaction: the loss of leases with their fallbacks
(R99, R104), PORT RESET (R155), DEVICE RESET (R157), the power-on values (R162), the completion of a READ EVENT (R130,
R131) and the release of select (R152). -/

namespace Sys2Proof.Machine

/-- The items a port holds, in ascending order (R104). -/
def State.heldItems (s : State) (p : Port) : List Item := allItems.filter (s.holds p)

/-- The fallbacks of the items port `p` held in `before` are applied: each leg with OFF gets a forced OFF write, and each
group with HALT is sent a fallback HALT notice (R99). -/
def State.applyFallbacks (s before : State) (p : Port) : State :=
  (s.forceOffLegs fun l => before.holds p (.leg l) && decide ((before.leg l).fallback = .off)).mapGroups fun g v =>
    if before.holds p (.group g) && decide ((before.group g).fallback = .halt) then
      { v with haltNotices := v.haltNotices + 1 }
    else v

/-- A liveness expiry, one event of the lease unit: its steps 1 to 6 (R63, R104, R105). -/
def State.expire (s : State) (p : Port) : State :=
  let s1 := s.setHolders (s.holds p) none
  let s2 := { s1 with sets := s1.sets.filter fun c => !(decide (c.owner = p) && c.isOpen) }
  let s3 := (s2.cancelSets (fun c => decide (c.owner = p)) .leaseLost).applyFallbacks s p
  let lost := (s.heldItems p).map fun i => Event.leaseLost i .timeout
  ((s3.raiseList p lost).raiseToSupervisor p lost).modPort p fun q => { q with timer := none }

/-- A READ EVENT response under way no longer removes a record or clears the marker: its queue has been emptied (R133). -/
def Txn.voidRead : Txn → Txn
  | .response r .readHead => .response r .none
  | .response r (.readEmpty _) => .response r .none
  | t => t

/-- A port's queue emptied, its marker cleared, its mask at all kinds, its timer stopped and its previous transaction OK
and COMPLETE (R107, R136, R155). -/
def PortState.cleared (q : PortState) : PortState :=
  { q with queue := [], overrun := false, notify := 0xFF, timer := none, prevResult := .ok, prevResponse := .complete,
           txn := q.txn.voidRead }

/-- A PORT RESET takes effect, one event on the named port's share of the part: its leases with their fallbacks (R107), its
sets (R66), its queue, marker and mask (R136), its timer and its previous-transaction record (R155); the supervisor, if
it is another port, receives the PORT_RESET record. -/
def State.resetPort (s : State) (p : Port) (bySupervisor : Bool) : State :=
  let s1 := s.setHolders (s.holds p) none
  let s2 := { s1 with sets := s1.sets.filter fun c => decide (c.owner ≠ p) }
  ((s2.applyFallbacks s p).modPort p PortState.cleared).raiseToSupervisor p [.portReset p bySupervisor]

/-- The group each leg belongs to after a reset (R22). -/
def homeGroup : Leg → Group
  | .l0 | .l1 | .l2 => .g0
  | .l3 | .l4 | .l5 => .g1

/-- A leg after DEVICE RESET: power-on values, both outputs INACTIVE at once, an output that was ACTIVE with count 0 and
another with its count kept (R22). -/
def LegState.deviceReset (home : Group) (l : LegState) : LegState :=
  { LegState.atPowerOn home with outA := l.outA.drop, outB := l.outB.drop }

/-- A port other than the issuing one takes a DEVICE RESET by its transaction state (R157). -/
def Txn.deviceReset : Txn → Txn
  | .deselected => .deselected
  | .request | .response _ _ | .discard _ => .discard false

/-- A DEVICE RESET takes effect: every block takes its DEVICE RESET values in one event, and the straps' value, the monitor
and the time base are kept (R22, R43, R67, R91, R110, R125, R137, R157, R158, R167). What stands on the serial lines and in
the sync inputs, request bytes stored in any port among it, is kept (DESIGN CHOICE, log entry 17). A trip input that is
low at the release stays QUIET until the next 1 µs sample finds it low: the manual says that it is evaluated from the
release (R125, R167) and not whether the release itself begins QUALIFYING (DESIGN CHOICE, log entry 19). -/
def State.resetDevice (s : State) (issuer : Port) : State :=
  { s with
    ports := s.ports.map fun q v =>
      { PortState.atPowerOn v.selectLow v.line.clockHigh with
        txn := if q = issuer then v.txn else v.txn.deviceReset
        line := v.line }
    legs := s.legs.map fun l v => v.deviceReset (homeGroup l)
    groups := s.groups.map fun _ _ => GroupState.atPowerOn
    inputs := s.inputs.map fun _ v => InputState.atPowerOn v.pinLow
    sets := []
    nextId := 1
    sealCount := 0 }

/-- Entering RESET: every block takes its power-on values and nothing held before survives (R162); the levels that the
board holds on SSx, SCKx, the trip pins and the sync pins, and the model's own fields, are not the part's to change (DESIGN
CHOICE, log entry 8). -/
def State.enterReset (s : State) : State :=
  { State.reset with
    ports := s.ports.map fun _ v => PortState.atPowerOn v.selectLow v.line.clockHigh
    inputs := s.inputs.map fun _ v => InputState.atPowerOn v.pinLow
    syncs := s.syncs.map fun _ v => SyncState.atPowerOn v.pinHigh
    choices := s.choices
    pending := s.pending }

/-- A DONE set of the port that a completely read record reports is removed (R61, R132). -/
def State.freeReported (s : State) (p : Port) (e : Event) : State :=
  if e.isSetRecord then
    { s with sets := s.sets.filter fun c => !(decide (c.id = e.setId) && decide (c.owner = p) && c.isDone) }
  else s

/-- The whole of a READ EVENT response has been clocked out: the record returned leaves the head of the queue, with its
notice to the set unit (R130, R132), or the marker is cleared unless a record was discarded since (R131). -/
def State.completeRead (s : State) (p : Port) : State :=
  match (s.port p).txn with
  | .response r .readHead =>
    let s1 := s.modPort p fun q => { q with queue := q.queue.tail, txn := .response r .completed }
    match (s.port p).queue.head? with
    | some e => s1.freeReported p e
    | none => s1
  | .response r (.readEmpty discarded) =>
    s.modPort p fun q => { q with overrun := discarded && q.overrun, txn := .response r .completed }
  | _ => s

/-- A transaction ends: the port becomes DESELECTED and its previous transaction is recorded (R152). -/
def State.endTxn (s : State) (p : Port) (r : Result) (how : PrevResponse) : State :=
  s.modPort p fun q => { q with txn := .deselected, prevResult := r, prevResponse := how }

/-- COMPLETE where RCHK was clocked out before the release, CUT otherwise (R152). -/
def prevOf (whole : Bool) : PrevResponse := if whole then .complete else .cut

/-- SSx goes high: the bits of a byte left incomplete are discarded (R146). -/
def PortState.release (q : PortState) : PortState := { q with selectLow := false, line := { q.line with bits := [] } }

/-- SSx goes high: the transaction under way ends by its state, and a reset that waits for the release takes effect
first (R147, R151, R152, R155, R157, R164; DEDUCED, log entry 9). -/
def State.releaseSelect (s : State) (p : Port) (whole : Bool) : State :=
  let s0 := s.modPort p PortState.release
  if s.operating then
    match (s.port p).txn with
    | .deselected => s0
    | .request => s0.endTxn p .truncated .cut
    | .discard true => s0.endTxn p .malformed .cut
    | .discard false => s0.modPort p fun q => { q with txn := .deselected }
    | .response r .portReset => (s0.resetPort p false).endTxn p r.result (prevOf whole)
    | .response r .deviceReset => (s0.resetDevice p).endTxn p r.result (prevOf whole)
    | .response r .completed => s0.endTxn p r.result .complete
    | .response r _ => (if whole then s0.completeRead p else s0).endTxn p r.result (prevOf whole)
  else s0

/-- An event that the part takes only in OPERATING: in RESET and START-UP the lines are not read, no tick runs and no
timer is counting (R162). -/
def inOperation (f : State → State) (s : State) : Host.Outcome State Fault Refusal :=
  if s.operating then .next (f s) else .next s

end Sys2Proof.Machine
end

