-- ==== Sys2Proof/Machine/Groups.lean ====
section
/-! DEFINITION. The group timer family: START, STOP, CONFIGURE GROUP, ASSIGN LEG, the fallback HALT notice, ticks, frame ends
and sync edges (chapter 2 and section 1.6). -/

namespace Sys2Proof.Machine

/-- The sync mode is a START mode (R29). -/
def SyncMode.isStart : SyncMode → Bool
  | .startRise | .startFall => true
  | .none | .resyncRise | .resyncFall | .resyncBoth => false

/-- The monitor reads LOST. -/
def Monitor.isLost : Monitor → Bool
  | .lost _ => true
  | .present => false

/-- The effect of a START that is taken, by run state and sync mode (R29). -/
def State.startGroup (s : State) (g : Group) : State :=
  match (s.group g).run with
  | .stopped =>
    if (s.group g).sync.isStart then
      (s.modGroup g fun v => { v with run := .armed, tick := 0, division := 0 }).raiseAll (.groupState g .armed (s.group g).fn)
    else
      let s1 := s.frameStart g true
      s1.raiseAll (.groupState g .started (s1.group g).fn)
  | .halting =>
    (s.modGroup g fun v => { v with run := .running }).raiseAll (.groupState g .started (s.group g).fn)
  | .armed | .running | .tripped => s

/-- The run state and FN of a group, as START and STOP answer them (R29, R30). -/
def State.runAndFrame (s : State) (g : Group) : List Byte := (s.group g).run.code :: be32 (s.group g).fn

/-- START (R29). -/
def startBody (p : Port) (group : Byte) (s : State) : Reply :=
  match groupArg group with
  | none => refuse s .badArg []
  | some g =>
    if !s.holds p (.group g) then refuse s .notHolder []
    else if s.tripped g then refuse s .groupState []
    else if (s.group g).run = .stopped ∧ s.monitor.isLost = true then refuse s .noClock []
    else accept (s.startGroup g) ((s.startGroup g).runAndFrame g)

/-- START (R29). -/
def execStart (p : Port) (group : Byte) (s : State) : Host.Outcome State Fault Refusal :=
  serve p (.start p group) (startBody p group) s

/-- The effect of a STOP that is taken, by run state and form (R30). -/
def State.stopGroup (s : State) (g : Group) (atEnd : Bool) : State :=
  match (s.group g).run with
  | .stopped | .tripped => s
  | .armed => s.enterStopped g .stoppedNow
  | .running =>
    if atEnd then
      (s.modGroup g fun v => { v with run := .halting }).raiseAll (.groupState g .halting (s.group g).fn)
    else s.enterStopped g .stoppedNow
  | .halting => if atEnd then s else s.enterStopped g .stoppedNow

/-- STOP (R30): from the holder of the group's lease or the supervisor. -/
def stopBody (p : Port) (group form : Byte) (s : State) : Reply :=
  match groupArg group, flagArg form with
  | some g, some atEnd =>
    if !(s.holds p (.group g) || s.isSupervisor p) then refuse s .notHolder []
    else if s.tripped g then refuse s .groupState []
    else accept (s.stopGroup g atEnd) ((s.stopGroup g atEnd).runAndFrame g)
  | _, _ => refuse s .badArg []

/-- STOP (R30). -/
def execStop (p : Port) (group form : Byte) (s : State) : Host.Outcome State Fault Refusal :=
  serve p (.stop p group form) (stopBody p group form) s

/-- The effect of CONFIGURE GROUP: both settings are replaced, and a change from HOLD to IDLE releases the held levels
(R35). -/
def State.configure (s : State) (g : Group) (sync : SyncMode) (out : StopOutput) : State :=
  let s1 := s.modGroup g fun v => { v with sync := sync, stopOutput := out }
  if (s.group g).stopOutput = .hold ∧ out = .idle then s1.modLegsOf g LegState.dropOutputs else s1

/-- CONFIGURE GROUP (R35). -/
def configureGroupBody (p : Port) (group sync stopOutput : Byte) (s : State) : Reply :=
  match groupArg group, syncArg sync, stopOutputArg stopOutput with
  | some g, some m, some o =>
    if !s.holds p (.group g) then refuse s .notHolder []
    else if (s.group g).run ≠ .stopped then refuse s .groupState []
    else accept (s.configure g m o) []
  | _, _, _ => refuse s .badArg []

/-- CONFIGURE_GROUP (R35). -/
def execConfigureGroup (p : Port) (group sync stopOutput : Byte) (s : State) : Host.Outcome State Fault Refusal :=
  serve p (.configureGroup p group sync stopOutput) (configureGroupBody p group sync stopOutput) s

/-- The leg has an edit in an OPEN or PENDING set of any port (R20, R68). -/
def State.legInSet (s : State) (l : Leg) : Bool := s.sets.any fun c => c.hasEdit (.leg l)

/-- ASSIGN LEG (R20): the leg belongs to the named group, with a forced OFF record. -/
def assignLegBody (p : Port) (leg group : Byte) (s : State) : Reply :=
  if !s.isSupervisor p then refuse s .notSupervisor []
  else
    match legArg leg, groupArg group with
    | some l, some g =>
      if s.legInSet l then refuse s .inSet []
      else if (s.group (s.leg l).group).run ≠ .stopped ∨ (s.group g).run ≠ .stopped then refuse s .groupState []
      else accept ((s.modLeg l fun v => { v with group := g }).forceOffLegs fun k => decide (k = l)) []
    | _, _ => refuse s .badArg []

/-- ASSIGN_LEG (R20). -/
def execAssignLeg (p : Port) (leg group : Byte) (s : State) : Host.Outcome State Fault Refusal :=
  serve p (.assignLeg p leg group) (assignLegBody p leg group) s

/-- FALLBACK_HALT (R37): the group timer takes a notice sent to it, and a RUNNING group becomes HALTING; with no notice
on its way there is nothing to take. -/
def execFallbackHalt (g : Group) (s : State) : Host.Outcome State Fault Refusal :=
  inOperation
    (fun t =>
      if (t.group g).haltNotices = 0 then t
      else
        let t1 := t.modGroup g fun v => { v with haltNotices := v.haltNotices - 1 }
        if (t.group g).run = .running then
          (t1.modGroup g fun v => { v with run := .halting }).raiseAll (.groupState g .fallbackHalt (t.group g).fn)
        else t1) s

/-- The tick under way is the last of its frame (R24). -/
def State.lastTick (s : State) (g : Group) : Bool := decide ((s.group g).timing.period ≤ (s.group g).tick + 1)

/-- An event that an edge of REFCLK brings: the monitor's measure begins anew at the edge (R122, R165). Outside OPERATING
REFCLK is not read (R162). -/
def onRefclk (f : State → State) (s : State) : Host.Outcome State Fault Refusal :=
  inOperation (fun t => f { t with refclkGap := 0 }) s

/-- TICK (R5, R6, R23, R24): the start of a tick after tick 0 of a frame of a RUNNING or HALTING group, the edges of REFCLK
that the tick before it still lacked having passed (DESIGN CHOICE, log entry 2); after the last tick of the frame no tick
but the frame's end follows. A TICK that fell due at the very edge of REFCLK at which a resync edge is taken first never
becomes a row (`State.isStale`). -/
def execTick (g : Group) (s : State) : Host.Outcome State Fault Refusal :=
  onRefclk
    (fun t =>
      if t.ticking g && !t.lastTick g then
        (t.modGroup g fun v => { v with tick := v.tick + 1, division := 0 }).tickStart g false ((t.group g).tick + 1)
      else t) s

/-- FRAME_END (R24, R26, R27): tick P−1 has elapsed (DESIGN CHOICE, log entry 2); before the last tick of a frame nothing
ends it naturally. -/
def execFrameEnd (g : Group) (s : State) : Host.Outcome State Fault Refusal :=
  onRefclk (fun t => if t.ticking g && t.lastTick g then t.endFrame g else t) s

/-- The edge is the one a START mode selects (R32). -/
def SyncMode.startsOn (m : SyncMode) (rising : Bool) : Bool :=
  match m with
  | .startRise => rising
  | .startFall => !rising
  | .none | .resyncRise | .resyncFall | .resyncBoth => false

/-- The edge is one a RESYNC mode selects (R32). -/
def SyncMode.resyncsOn (m : SyncMode) (rising : Bool) : Bool :=
  match m with
  | .resyncRise => rising
  | .resyncFall => !rising
  | .resyncBoth => true
  | .none | .startRise | .startFall => false

/-- A recognised sync edge ends the frame under way: its direction is one that a RESYNC mode selects, and the group is
RUNNING or HALTING after tick 3 (R32, R34). -/
def State.cutsFrame (s : State) (g : Group) (rising : Bool) : Bool :=
  s.ticking g && (s.group g).sync.resyncsOn rising && decide (4 ≤ (s.group g).tick)

/-- A recognised sync edge, by sync mode and run state (R32): it starts an ARMED group (R33), or ends the frame of a
RUNNING or HALTING group after tick 3 (R34), and is ignored otherwise. -/
def State.takeEdge (s : State) (g : Group) (rising : Bool) : State :=
  if (s.group g).run = .armed ∧ (s.group g).sync.startsOn rising = true then
    let s1 := s.frameStart g true
    s1.raiseAll (.groupState g .syncStart (s1.group g).fn)
  else if s.cutsFrame g rising then s.endFrame g
  else s

/-- A new level of a sync input is recognised: it has stood at two successive rising edges of REFCLK (R165). -/
def SyncState.recognise (level : Bool) (_ : SyncState) : SyncState := { pinHigh := level, sample := level, level := level }

/-- SYNC_EDGE (R32, R33, R34): a change of the recognised level is one edge of the new direction, and a direction whose level
is the recognised one already has none (R165). -/
def execSyncEdge (g : Group) (rising : Bool) (s : State) : Host.Outcome State Fault Refusal :=
  onRefclk
    (fun t =>
      if (t.syncInput g).level = rising then t else (t.modSync g (SyncState.recognise rising)).takeEdge g rising) s

end Sys2Proof.Machine
end

