-- ==== Sys2Proof/Machine/Serial.lean ====
section
/-! DEFINITION. The serial lines of a port, bit by bit (R146): bytes and their bits, the edges of SCKx, and what a byte that
has been received or sent brings about (R147 to R150). -/

namespace Sys2Proof.Machine

/-- The bits of a byte as they are sent, most significant bit first (R146). -/
def bitsOf (b : Byte) : List Bool :=
  [b.getLsbD 7, b.getLsbD 6, b.getLsbD 5, b.getLsbD 4, b.getLsbD 3, b.getLsbD 2, b.getLsbD 1, b.getLsbD 0]

/-- The byte that bits sent most significant bit first make up (R146). -/
def byteOfBits (bits : List Bool) : Byte := byteOf (bits.foldl (fun n b => 2 * n + b.toNat) 0)

/-- A rising edge of SCKx with SSx low: the bit on SIx is sampled, and a byte is received when its eighth bit has been
sampled (R146). `keep` says that the port stores it, which it does in REQUEST (R147). -/
def SerialLine.sample (data keep : Bool) (l : SerialLine) : SerialLine :=
  let bits := l.bits ++ [data]
  if bits.length < 8 then { l with clockHigh := true, bits := bits, sampled := l.sampled + 1 }
  else
    { l with
      clockHigh := true
      bits := []
      sampled := l.sampled + 1
      request := if keep then l.request ++ [byteOfBits bits] else l.request }

/-- A falling edge of SCKx with SSx low: the next bit is placed on SOx (R146). In clock mode 0 the first bit was placed when
SSx went low, and in clock mode 3 the first falling edge places it. -/
def SerialLine.place (l : SerialLine) : SerialLine := { l with clockHigh := false, placed := l.placed + 1 }

/-- SCKx takes a level: an edge where the level changes, which the port takes while its SSx is low and ignores while it is
high (R146). -/
def PortState.clockLevel (high data : Bool) (q : PortState) : PortState :=
  if q.line.clockHigh = high then q
  else if q.selectLow then
    { q with line := if high then q.line.sample data (decide (q.txn = .request)) else q.line.place }
  else { q with line := { q.line with clockHigh := high } }

/-- The rows that a request's bytes bring about once the last of them is stored (R148, R149). -/
def requestRow (p : Port) (bytes : List Byte) : List Instr :=
  match classifyRequest p bytes, bytes with
  | .good c, _ => [c]
  | .bad _, _ => [.badRequest p bytes]
  | .malformed, cmd :: len :: _ => [.malformed p cmd len]
  | .malformed, _ => []
  | .notWhole, _ => []

/-- The bits of a transaction whose response is clocked out whole, RCHK included (R150). -/
def SerialLine.wholeLength (l : SerialLine) (r : Response) : Nat := 8 * (l.request.length + r.bytes.length)

/-- The rows that follow from the bit just sampled: those of a byte that completes a request (R147), and the completion of a
READ EVENT whose response has been clocked out (R130, R131). -/
def PortState.sampledRows (p : Port) (q : PortState) : List Instr :=
  match q.txn with
  | .request => if q.line.bits = [] then requestRow p q.line.request else []
  | .response r .readHead => if q.line.sampled = q.line.wholeLength r then [.readEventCompleted p] else []
  | .response r (.readEmpty _) => if q.line.sampled = q.line.wholeLength r then [.readEventCompleted p] else []
  | .response _ _ | .deselected | .discard _ => []

/-- The rows that a level of SCKx brings about: those of the bit sampled at a rising edge with SSx low. -/
def State.clockRows (s : State) (p : Port) (high data : Bool) : List Instr :=
  if high && !(s.port p).line.clockHigh && (s.port p).selectLow then
    ((s.port p).clockLevel high data).sampledRows p
  else []

end Sys2Proof.Machine
end

