-- ==== Sys2Proof/Machine/Flags.lean ====
section
/-! DEFINITION. What the part's lines and pins show, computed from what it holds: the ATTN lines (R135), the gate outputs
(R2, R162), the serial data lines (R146 to R150, R164) and the driver of a leg (R145). -/

namespace Sys2Proof.Machine

/-- The level of a line the part can drive. -/
inductive Level where
  | low | high | highZ
deriving DecidableEq, Repr

/-- A queue holds a record whose kind is enabled in its notify mask (R126, R134). -/
def PortState.attention (q : PortState) : Bool := q.queue.any fun e => q.notify.getLsbD (e.kind - 1)

/-- The ATTN line of a port: active low, at high impedance in RESET and START-UP (R135, R162). -/
def State.attnLine (s : State) (p : Port) : Level :=
  if s.operating then (if (s.port p).attention then .low else .high) else .highZ

/-- An output's pin is high: its polarity applied to its interlock state (R2, R145). -/
def pinHigh (pol : Polarity) (o : Output) : Bool :=
  match pol with
  | .activeHigh => decide (o.state = .active)
  | .activeLow => decide (o.state ≠ .active)

/-- Pin A of a leg is high. -/
def LegState.pinA (l : LegState) : Bool := pinHigh l.record.polarityA l.outA

/-- Pin B of a leg is high. -/
def LegState.pinB (l : LegState) : Bool := pinHigh l.record.polarityB l.outB

/-- A driven level as a line. -/
def driven (high : Bool) : Level := if high then .high else .low

/-- The pin of output A of a leg: at high impedance until start-up has completed (R22, R162). -/
def State.outPinA (s : State) (l : Leg) : Level := if s.operating then driven (s.leg l).pinA else .highZ

/-- The pin of output B of a leg: at high impedance until start-up has completed (R22, R162). -/
def State.outPinB (s : State) (l : Leg) : Level := if s.operating then driven (s.leg l).pinB else .highZ

/-- The bytes a port has to send: those of its response, and 0x00 on every other byte (R146, R148, R150). -/
def Txn.sends : Txn → List Byte
  | .response r _ => r.bytes
  | .deselected | .request | .discard _ => []

/-- The n-th byte a port drives on SOx in its present transaction state, none where SOx is at high impedance
(R146, R150, R162). -/
def State.serialOut (s : State) (p : Port) (n : Nat) : Option Byte :=
  if s.operating && (s.port p).selectLow then some ((s.port p).txn.sends.getD n 0) else none

/-- The bit on SOx while SSx is low: those of the response follow those that were placed with the request, each byte with
its most significant bit first, and every other bit is 0 (R146, R148, R150). -/
def PortState.soBit (q : PortState) : Bool :=
  if q.line.placed ≤ 8 * q.line.request.length then false
  else (q.txn.sends.flatMap bitsOf).getD (q.line.placed - 1 - 8 * q.line.request.length) false

/-- The line SOx of a port: driven at all times while SSx is low, at high impedance while it is high, and in RESET and
START-UP (R146, R162). -/
def State.soLine (s : State) (p : Port) : Level :=
  if s.operating && (s.port p).selectLow then driven (s.port p).soBit else .highZ

/-- What governs a leg's outputs (R145). -/
inductive Driver where
  | pattern | stopped | safe
deriving DecidableEq, Repr

/-- The driver of the legs of a group in a run state (R145). -/
def RunState.driver : RunState → Driver
  | .running | .halting => .pattern
  | .stopped | .armed => .stopped
  | .tripped => .safe

/-- The driver's code, in bits 7 and 6 of the last byte of the output readout (section 9.7). -/
def Driver.code : Driver → Nat
  | .pattern => 0
  | .stopped => 64
  | .safe => 128

/-- The safe wait field: whole microseconds, 64 or more reported as 63, 0 for none (R145, R161). -/
def safeWaitField : Option Nat → Nat
  | none => 0
  | some n => min n 63

end Sys2Proof.Machine
end

