-- ==== Sys2Proof/Machine/Inspect.lean ====
section
/-! DEFINITION. The inspection family: IDENTIFY, PORT STATUS, READ ACTIVE, READ PENDING and READ OUTPUTS (chapter 8). -/

namespace Sys2Proof.Machine

/-- IDENTIFY (R140). -/
def identifyBody (p : Port) (s : State) : Reply :=
  accept s [0x57, 0x6C, 0x01, byteOf (portNum p), holderCode s.supervisor]

/-- IDENTIFY (R140). -/
def execIdentify (p : Port) (s : State) : Host.Outcome State Fault Refusal :=
  serve p (.identify p) (identifyBody p) s

/-- The id of the port's OPEN set, 0 for none (R141). -/
def State.openSetId (s : State) (p : Port) : Nat := ((s.openSetOf p).map ChangeSet.id).getD 0

/-- The code of a previous response (section 9.6). -/
def PrevResponse.code : PrevResponse → Byte
  | .complete => 0
  | .cut => 1

/-- The port status layout, 16 bytes (R141, section 9.7). -/
def State.portStatusBytes (s : State) (q : Port) : List Byte :=
  [byteOf (portNum q), flagCode (s.isSupervisor q), holderCode s.supervisor, byteOf (s.port q).timeout,
    flagCode (s.port q).timer.isSome, byteOf ((s.port q).timer.getD 0), s.heldMask q, byteOf (s.openSetId q)] ++
  [byteOf (s.pendingCount q), byteOf (s.doneCount q), byteOf (s.port q).queue.length, flagCode (s.port q).overrun,
    (s.port q).notify, s.monitor.code, (s.port q).prevResult.code, (s.port q).prevResponse.code]

/-- PORT STATUS (R141). -/
def portStatusBody (p : Port) (named : Byte) (s : State) : Reply :=
  match portArg named with
  | none => refuse s .badArg []
  | some q => if q = p ∨ s.isSupervisor p = true then accept s (s.portStatusBytes q) else refuse s .notSupervisor []

/-- PORT_STATUS (R141). -/
def execPortStatus (p : Port) (named : Byte) (s : State) : Host.Outcome State Fault Refusal :=
  serve p (.portStatus p named) (portStatusBody p named) s

/-- The leg readout layout, 21 bytes (R142). -/
def State.legReadout (s : State) (l : Leg) : List Byte :=
  byteOf (legNum l) :: groupCode (s.leg l).group :: (s.leg l).record.bytes ++
    [flagCode (s.leg l).safeA, flagCode (s.leg l).safeB, byteOf (s.leg l).safeDelay] ++
    be32 (s.group (s.leg l).group).fn

/-- The group readout layout, 19 bytes (R143). -/
def State.groupReadout (s : State) (g : Group) : List Byte :=
  (Item.group g).code :: (s.group g).timing.bytes ++
    [(s.group g).sync.code, (s.group g).stopOutput.code, (s.group g).run.code] ++ be32 (s.group g).fn ++
    halfOf (s.group g).tick ++ halfOf (s.group g).remaining ++
    [(s.group g).causes.code, byteOf (s.pendingIn g).length]

/-- READ ACTIVE (R142, R143). -/
def readActiveBody (item : Byte) (s : State) : Reply :=
  match itemArg item with
  | none => refuse s .badArg []
  | some (.leg l) => accept s (s.legReadout l)
  | some (.group g) => accept s (s.groupReadout g)

/-- READ_ACTIVE (R142, R143). -/
def execReadActive (p : Port) (item : Byte) (s : State) : Host.Outcome State Fault Refusal :=
  serve p (.readActive p item) (readActiveBody item) s

/-- The bytes of the edit of an item in a set, and zeros where there is none: 12 for a leg, 5 for a group (R144, R161). -/
def editBytes (c : Option ChangeSet) (i : Item) : List Byte :=
  match i with
  | .leg l =>
    match c.bind fun c => stagedLeg c.edits l with
    | some r => r.bytes
    | none => List.replicate 12 0
  | .group g =>
    match c.bind fun c => stagedTiming c.edits g with
    | some t => t.bytes
    | none => List.replicate 5 0

/-- READ PENDING (R144). -/
def readPendingBody (item : Byte) (s : State) : Reply :=
  match itemArg item with
  | none => refuse s .badArg []
  | some i =>
    match s.pendingSetOf i with
    | some c =>
      accept s
        ([1, byteOf c.id, byteOf (portNum c.owner), groupCode c.group] ++ be32 c.target ++
          be32 (s.group c.group).fn ++ editBytes (some c) i)
    | none => accept s ([0, 0, 0xFF, 0xFF] ++ be32 0 ++ be32 0 ++ editBytes none i)

/-- READ_PENDING (R144). -/
def execReadPending (p : Port) (item : Byte) (s : State) : Host.Outcome State Fault Refusal :=
  serve p (.readPending p item) (readPendingBody item) s

/-- The output readout of one leg, 8 bytes (R145, R161, section 9.7). -/
def State.outputReadout (s : State) (l : Leg) : List Byte :=
  [byteOf ((s.leg l).pinA.toNat + 2 * (s.leg l).pinB.toNat), (s.leg l).outA.state.code, (s.leg l).outB.state.code] ++
    halfOf (s.leg l).outA.count ++ halfOf (s.leg l).outB.count ++
    [byteOf ((s.group (s.leg l).group).run.driver.code + safeWaitField (s.leg l).safeWait)]

/-- READ OUTPUTS (R145). -/
def readOutputsBody (s : State) : Reply := accept s (allLegs.flatMap s.outputReadout)

/-- READ_OUTPUTS (R145). -/
def execReadOutputs (p : Port) (s : State) : Host.Outcome State Fault Refusal :=
  serve p (.readOutputs p) readOutputsBody s

end Sys2Proof.Machine
end

