-- ==== Sys2Proof/Machine/Leases.lean ====
section
/-! DEFINITION. The lease family: CLAIM, RELEASE, SEIZE, SET FALLBACK, SET LIVENESS, READ LEASES and the liveness expiry
(chapter 5). -/

namespace Sys2Proof.Machine

/-- The item is held by a port other than `p`. -/
def State.heldByOther (s : State) (p : Port) (i : Item) : Bool := (s.holder i).isSome && !s.holds p i

/-- CLAIM (R93): granted whole or refused HELD. -/
def claimBody (p : Port) (mask : Byte) (s : State) : Reply :=
  if mask = 0 then refuse s .badArg []
  else
    match allItems.find? fun i => inMask mask i && s.heldByOther p i with
    | some i => refuse s .held [i.code, holderCode (s.holder i)]
    | none =>
      let s1 := (s.setHolders (inMask mask) (some p)).startTimer p
      accept s1 [maskOf fun i => inMask mask i && (s.holder i).isNone, s1.heldMask p]

/-- CLAIM (R93). -/
def execClaim (p : Port) (mask : Byte) (s : State) : Host.Outcome State Fault Refusal :=
  serve p (.claim p mask) (claimBody p mask) s

/-- The OPEN or PENDING set of the port with an edit of the item that a RELEASE refused IN_SET names: where both an OPEN
and a PENDING set have one, R95 does not say which, and the choice is free (DESIGN CHOICE, log
entry 5). -/
def State.inSetNamed (s : State) (p : Port) (i : Item) : Option Nat :=
  let opened := s.sets.find? fun c => decide (c.owner = p) && c.isOpen && c.hasEdit i
  let waiting := s.sets.find? fun c => decide (c.owner = p) && c.isPending && c.hasEdit i
  match opened, waiting with
  | some a, some b => some (if Config.inSetNamesPending a.id b.id then b.id else a.id)
  | some a, none => some a.id
  | none, some b => some b.id
  | none, none => none

/-- RELEASE (R95): whole, with no fallback applied. -/
def releaseBody (p : Port) (mask : Byte) (s : State) : Reply :=
  if mask = 0 then refuse s .badArg []
  else
    match allItems.find? fun i => inMask mask i && !s.holds p i with
    | some i => refuse s .notHolder [i.code, holderCode (s.holder i)]
    | none =>
      match allItems.findSome? fun i => if inMask mask i then (s.inSetNamed p i).map fun id => (i, id) else none with
      | some (i, id) => refuse s .inSet [i.code, byteOf id]
      | none =>
        let s1 := (s.setHolders (inMask mask) none).stopTimerIfIdle p
        accept s1 [s1.heldMask p]

/-- RELEASE (R95). -/
def execRelease (p : Port) (mask : Byte) (s : State) : Host.Outcome State Fault Refusal :=
  serve p (.release p mask) (releaseBody p mask) s

/-- SEIZE by `p` with the mask takes the item from port `q` (R96). -/
def State.takenFrom (s : State) (p : Port) (mask : Byte) (q : Port) (i : Item) : Bool :=
  inMask mask i && s.holds q i && decide (q ≠ p)

/-- A set has an edit of an item that the seizure takes from its owner (R64). -/
def State.seizureHits (s : State) (p : Port) (mask : Byte) (c : ChangeSet) : Bool :=
  c.edits.any fun e => s.takenFrom p mask c.owner e.item

/-- An OPEN set loses its edits of the items taken from its owner and stays OPEN (R64). -/
def State.trimmed (s : State) (p : Port) (mask : Byte) (c : ChangeSet) : ChangeSet :=
  match c.body with
  | .opened es => { c with body := .opened (es.filter fun e => !s.takenFrom p mask c.owner e.item) }
  | .pending _ _ _ | .done _ _ => c

/-- The LEASE_LOST records of a seizure, one for each taken item to its former holder, in ascending item order (R96). -/
def State.raiseSeized (s before : State) (p : Port) (mask : Byte) : State :=
  allItems.foldl
    (fun t i =>
      match before.holder i with
      | some q => if before.takenFrom p mask q i then t.raise q (.leaseLost i .seized) else t
      | none => t) s

/-- SEIZE (R64, R96): the supervisor becomes the holder of every item in the mask; the sets of the former holders that
touched a taken item are trimmed or cancelled, their records raised in seal order before the LEASE_LOST records; no
fallback is applied. -/
def seizeBody (p : Port) (mask : Byte) (s : State) : Reply :=
  if !s.isSupervisor p then refuse s .notSupervisor []
  else if mask = 0 then refuse s .badArg []
  else
    let s1 := s.setHolders (inMask mask) (some p)
    let s2 := { s1 with sets := s1.sets.map (s.trimmed p mask) }
    let s3 := (s2.cancelSets (s.seizureHits p mask) .seized).raiseSeized s p mask
    let s4 := (allPorts.filter fun q => decide (q ≠ p)).foldl State.stopTimerIfIdle (s3.startTimer p)
    let cancelled := s.sets.countP fun c => c.isPending && s.seizureHits p mask c
    accept s4 ((allItems.map fun i => holderCode (s.holder i)) ++ [byteOf cancelled])

/-- SEIZE (R96). -/
def execSeize (p : Port) (mask : Byte) (s : State) : Host.Outcome State Fault Refusal :=
  serve p (.seize p mask) (seizeBody p mask) s

/-- The fallback of an item: 0 is HOLD or RUN, 1 is OFF or HALT (R98). -/
def State.setItemFallback (s : State) (i : Item) (v : Bool) : State :=
  match i with
  | .leg l => s.modLeg l fun x => { x with fallback := if v then .off else .hold }
  | .group g => s.modGroup g fun x => { x with fallback := if v then .halt else .run }

/-- SET FALLBACK (R98). -/
def setFallbackBody (p : Port) (item value : Byte) (s : State) : Reply :=
  match itemArg item, flagArg value with
  | some i, some v =>
    if s.holds p i then accept (s.setItemFallback i v) [item, value] else refuse s .notHolder []
  | _, _ => refuse s .badArg []

/-- SET_FALLBACK (R98). -/
def execSetFallback (p : Port) (item value : Byte) (s : State) : Host.Outcome State Fault Refusal :=
  serve p (.setFallback p item value) (setFallbackBody p item value) s

/-- The timer after SET LIVENESS: RUNNING with the new timeout where the named port holds items and the timeout is not 0,
STOPPED otherwise (R103). -/
def State.timerFor (s : State) (q : Port) (timeout : Nat) : Option Nat :=
  if s.holdsAny q && decide (timeout ≠ 0) then some timeout else none

/-- SET LIVENESS (R103). -/
def setLivenessBody (p : Port) (named timeout : Byte) (s : State) : Reply :=
  if !s.isSupervisor p then refuse s .notSupervisor []
  else
    match portArg named with
    | none => refuse s .badArg []
    | some q =>
      accept (s.modPort q fun v => { v with timeout := timeout.toNat, timer := s.timerFor q timeout.toNat })
        [named, timeout, flagCode (s.timerFor q timeout.toNat).isSome]

/-- SET_LIVENESS (R103). -/
def execSetLiveness (p : Port) (named timeout : Byte) (s : State) : Host.Outcome State Fault Refusal :=
  serve p (.setLiveness p named timeout) (setLivenessBody p named timeout) s

/-- The fallback code of an item (R109). -/
def State.fallbackCode (s : State) : Item → Byte
  | .leg l => (s.leg l).fallback.code
  | .group g => (s.group g).fallback.code

/-- READ LEASES (R109): holder then fallback for each item in item order. -/
def readLeasesBody (s : State) : Reply :=
  accept s (allItems.flatMap fun i => [holderCode (s.holder i), s.fallbackCode i])

/-- READ_LEASES (R109). -/
def execReadLeases (p : Port) (s : State) : Host.Outcome State Fault Refusal :=
  serve p (.readLeases p) readLeasesBody s

/-- LIVENESS_EXPIRY (R104): the time remaining of a RUNNING timer has reached 0; where the timer has been restarted or
stopped first, the expiry does not occur (R101, R102, R103). Behind a STAGE or a SEAL taken first the timer may stand at 0
still, and the expiry then discards or cancels the set (R58, R65; DESIGN CHOICE, log entry 20: `Reply.leaveDue`). -/
def execLivenessExpiry (p : Port) (s : State) : Host.Outcome State Fault Refusal :=
  inOperation (fun t => if (t.port p).timer = some 0 then t.expire p else t) s

end Sys2Proof.Machine
end

