-- ==== Sys2Proof/Machine/Ports.lean ====
section
/-! DEFINITION. The port interface family: PORT RESET and DEVICE RESET, their effects at the release of select, the requests
that reach no block, and the select line (chapter 9). -/

namespace Sys2Proof.Machine

/-- PORT RESET (R155): another port is reset at once with reason SUPERVISOR; the issuing port itself at the release. -/
def portResetBody (p : Port) (named : Byte) (s : State) : Reply :=
  match portArg named with
  | none => refuse s .badArg []
  | some q =>
    if q = p then { state := s, resp := { result := .ok, data := [named] }, after := .portReset }
    else if s.isSupervisor p then accept (s.resetPort q true) [named]
    else refuse s .notSupervisor []

/-- PORT_RESET (R155). -/
def execPortReset (p : Port) (named : Byte) (s : State) : Host.Outcome State Fault Refusal :=
  serve p (.portReset p named) (portResetBody p named) s

/-- DEVICE RESET (R157): answered OK and held until the release. -/
def deviceResetBody (p : Port) (s : State) : Reply :=
  if s.isSupervisor p then { state := s, resp := { result := .ok, data := [] }, after := .deviceReset }
  else refuse s .notSupervisor []

/-- DEVICE_RESET (R157). -/
def execDeviceReset (p : Port) (s : State) : Host.Outcome State Fault Refusal :=
  serve p (.deviceReset p) (deviceResetBody p) s

/-- The result of a request that reaches no owning block (R149). -/
def badResult : BadReason → Result
  | .check => .check
  | .unknown => .unknown
  | .length => .length

/-- BAD_REQUEST (R149): CHECK has no effect of any kind, not even on the liveness timer; UNKNOWN and LENGTH are good
transactions and restart it (R102). Bytes that are no bad request are no such event (DEDUCED, log entry 3). -/
def execBadRequest (p : Port) (bytes : List Byte) (s : State) : Host.Outcome State Fault Refusal :=
  if s.ready p then
    match classifyRequest p bytes with
    | .bad .check =>
      .next ((refuse (s.modPort p fun q => { q with line := .holding bytes }) (badResult .check) []).answer p)
    | .bad reason => .next ((refuse (s.received p bytes) (badResult reason) []).answer p)
    | .notWhole | .malformed | .good _ => .next s
  else .next s

/-- MALFORMED (R148): a LEN greater than 16 sends the port to DISCARD; nothing else changes. -/
def execMalformed (p : Port) (cmd len : Byte) (s : State) : Host.Outcome State Fault Refusal :=
  if s.ready p && decide (16 < len.toNat) then
    .next (s.modPort p fun q => { q with txn := .discard true, line := .holding [cmd, len] })
  else .next s

/-- The lines of a port whose SSx goes low: nothing is stored, and in clock mode 0, with SCKx low, the first bit is placed
on SOx (R146, R147). -/
def SerialLine.select (l : SerialLine) : SerialLine :=
  { l with request := [], bits := [], sampled := 0, placed := if l.clockHigh then 0 else 1 }

/-- SELECT_ASSERTED (R147): in OPERATING a DESELECTED port goes to REQUEST with its request bytes cleared; in RESET and
START-UP only the pin changes (R164). -/
def execSelectAsserted (p : Port) (s : State) : Host.Outcome State Fault Refusal :=
  let s0 := s.modPort p fun q => { q with selectLow := true }
  if s.operating && decide ((s.port p).txn = .deselected) then
    .next (s0.modPort p fun q => { q with txn := .request, line := q.line.select })
  else .next s0

/-- SELECT_RELEASED (R152). -/
def execSelectReleased (p : Port) (whole : Bool) (s : State) : Host.Outcome State Fault Refusal :=
  .next (s.releaseSelect p whole)

/-- PORT_RESET_EFFECT (R155): the release that ends the transaction of a self-issued PORT RESET. SSx goes high whatever the
port waits for, so a reset that another event has ended first leaves a release like any other (R157, R167; DEDUCED, log
entry 9). -/
def execPortResetEffect (p : Port) (whole : Bool) (s : State) : Host.Outcome State Fault Refusal :=
  .next (s.releaseSelect p whole)

/-- DEVICE_RESET_EFFECT (R157): the release that ends the transaction of a DEVICE RESET; where a hardware reset is taken
first, SSx goes high in RESET and nothing else changes (R167; DEDUCED, log entry 9). -/
def execDeviceResetEffect (p : Port) (whole : Bool) (s : State) : Host.Outcome State Fault Refusal :=
  .next (s.releaseSelect p whole)

end Sys2Proof.Machine
end

