-- ==== Sys2Proof/Machine/Power.lean ====
section
/-! DEFINITION. The power family: the conditions RESET, START-UP and OPERATING and what moves the part between them
(section 10.3). -/

namespace Sys2Proof.Machine

/-- The supervisor value of the sampled straps SUPSEL1:0 (R154, R163). -/
def strapValue (straps : BitVec 2) : Option Port :=
  match straps.toNat with
  | 0 => some .p0
  | 1 => some .p1
  | 2 => some .p2
  | _ => none

/-- From RESET the part enters START-UP and samples the straps; in the other conditions the event does not arise
(R162, R163). -/
def State.enterStartUp (s : State) (straps : BitVec 2) : State :=
  if s.condition = .reset then { s with condition := .startUp, supervisor := strapValue straps } else s

/-- POWER_ON (R162). -/
def execPowerOn (straps : BitVec 2) (s : State) : Host.Outcome State Fault Refusal := .next (s.enterStartUp straps)

/-- RESETN_RELEASED (R162). -/
def execResetnReleased (straps : BitVec 2) (s : State) : Host.Outcome State Fault Refusal :=
  .next (s.enterStartUp straps)

/-- POWER_FAIL (R162). -/
def execPowerFail (s : State) : Host.Outcome State Fault Refusal := .next s.enterReset

/-- RESETN_ASSERTED (R162). -/
def execResetnAsserted (s : State) : Host.Outcome State Fault Refusal := .next s.enterReset

/-- Entry to OPERATING, one event (R162): each port is DESELECTED, or in an unrecorded DISCARD where its SSx is already low
(R164); the monitor measures from LOST with a restore count of 0; an input found low enters QUALIFYING; the time base
starts. The level found on a sync input is no edge (DESIGN CHOICE, log entry 16). -/
def State.enterOperating (s : State) : State :=
  { s with
    condition := .operating
    hkoTenths := 0
    hkoMicros := 0
    monitor := .lost 0
    refclkGap := 0
    syncs := s.syncs.map fun _ v => { v with sample := v.pinHigh, level := v.pinHigh }
    ports := s.ports.map fun _ v => { v with txn := if v.selectLow then .discard false else .deselected }
    inputs := s.inputs.map fun _ v => { v with filter := if v.pinLow then .qualifying 0 else .quiet } }

/-- START_UP_COMPLETE (R162): from START-UP; in the other conditions the event does not arise. -/
def execStartUpComplete (s : State) : Host.Outcome State Fault Refusal :=
  if s.condition = .startUp then .next s.enterOperating else .next s

end Sys2Proof.Machine
end

