-- ==== Sys2Proof/Machine/Protection.lean ====
section
/-! DEFINITION. The trip family: TRIP, CLEAR TRIP, MAP TRIP, SET SAFE, the trip inputs, the safe wait and the
reference-clock monitor (chapter 6). -/

namespace Sys2Proof.Machine

/-- What TRIP reports of one group: 0 not named, 1 tripped, 2 COMMAND added, 3 no change; and its run state before
(R115). -/
def State.tripReport (s : State) (named : Bool) (g : Group) : List Byte :=
  let code : Byte :=
    if !named then 0
    else if !s.tripped g then 1
    else if (s.group g).causes.command then 3
    else 2
  [code, (s.group g).run.code]

/-- TRIP (R115). -/
def tripBody (p : Port) (mask : Byte) (s : State) : Reply :=
  if !s.isSupervisor p then refuse s .notSupervisor []
  else
    match groupMaskArg mask with
    | none => refuse s .badArg []
    | some m =>
      if mask = 0 then refuse s .badArg []
      else accept (s.tripGroups m.get .command) (s.tripReport m.g0 .g0 ++ s.tripReport m.g1 .g1)

/-- TRIP (R115). -/
def execTrip (p : Port) (mask : Byte) (s : State) : Host.Outcome State Fault Refusal :=
  serve p (.trip p mask) (tripBody p mask) s

/-- An input whose present mask includes the group is ASSERTED, or CLOCK is a cause and the monitor reads LOST (R120). -/
def State.clearBlocked (s : State) (g : Group) : Bool :=
  (allInputs.any fun i => (s.input i).mask.get g && decide ((s.input i).filter = .asserted)) ||
    ((s.group g).causes.clock && s.monitor.isLost)

/-- The effect of CLEAR TRIP, one event: the cause set is emptied, the safe waits end, the group is STOPPED with the CLEARED
record, and every leg of the group gets a forced OFF record (R40, R120). -/
def State.clearGroup (s : State) (g : Group) : State :=
  ((s.modGroup g fun v => { v with run := .stopped, tick := 0, division := 0, causes := CauseSet.empty }).raiseAll
    (.groupState g .cleared (s.group g).fn)).modLegsOf g fun v => { v.forceOff false with safeWait := none }

/-- CLEAR TRIP (R120). -/
def clearTripBody (p : Port) (group : Byte) (s : State) : Reply :=
  if !s.isSupervisor p then refuse s .notSupervisor []
  else
    match groupArg group with
    | none => refuse s .badArg []
    | some g =>
      if !s.tripped g then refuse s .groupState [(s.group g).run.code]
      else if s.clearBlocked g then
        refuse s .tripActive
          [(s.group g).causes.code, (s.input .trip0).filter.code, (s.input .trip1).filter.code, s.monitor.code]
      else accept (s.clearGroup g) []

/-- CLEAR_TRIP (R120). -/
def execClearTrip (p : Port) (group : Byte) (s : State) : Host.Outcome State Fault Refusal :=
  serve p (.clearTrip p group) (clearTripBody p group) s

/-- The effect of MAP TRIP: mask and filter time are replaced together. A QUALIFYING filter whose low time has reached the
new time becomes ASSERTED at once and trips the groups of the new mask (R113); an ASSERTED input trips the groups the
new mask adds (R114). -/
def State.mapInput (s : State) (i : TripInput) (mask : PerGroup Bool) (time : Nat) : State :=
  let s1 := s.modInput i fun v => { v with mask := mask, filterTime := time }
  match (s.input i).filter with
  | .quiet => s1
  | .qualifying low => if time ≤ low then s1.assertInput i else s1
  | .asserted => s1.tripGroups (fun g => mask.get g && !(s.input i).mask.get g) (inputCause i)

/-- MAP TRIP (R114). -/
def mapTripBody (p : Port) (input mask time : Byte) (s : State) : Reply :=
  if !s.isSupervisor p then refuse s .notSupervisor []
  else
    match inputArg input, groupMaskArg mask with
    | some i, some m =>
      let s1 := s.mapInput i m time.toNat
      accept s1 [input, mask, time, (s1.input i).filter.code]
    | _, _ => refuse s .badArg []

/-- MAP_TRIP (R114). -/
def execMapTrip (p : Port) (input mask time : Byte) (s : State) : Host.Outcome State Fault Refusal :=
  serve p (.mapTrip p input mask time) (mapTripBody p input mask time) s

/-- The effect of SET SAFE: the three values are replaced together, and in a TRIPPED group the leg passes to its safe levels
again at once (R119). -/
def State.setSafe (s : State) (l : Leg) (a b : Bool) (delay : Nat) : State :=
  s.modLeg l fun v =>
    let v1 := { v with safeA := a, safeB := b, safeDelay := delay }
    if s.tripped v.group then v1.toSafe else v1

/-- SET SAFE (R119). -/
def setSafeBody (p : Port) (leg levelA levelB delay : Byte) (s : State) : Reply :=
  if !s.isSupervisor p then refuse s .notSupervisor []
  else
    match legArg leg, flagArg levelA, flagArg levelB with
    | some l, some a, some b =>
      if a && b then refuse s .badArg []
      else if (s.group (s.leg l).group).run ≠ .stopped ∧ (s.group (s.leg l).group).run ≠ .tripped then
        refuse s .groupState []
      else accept (s.setSafe l a b delay.toNat) [leg, levelA, levelB, delay]
    | _, _, _ => refuse s .badArg []

/-- SET_SAFE (R119). -/
def execSetSafe (p : Port) (leg levelA levelB delay : Byte) (s : State) : Host.Outcome State Fault Refusal :=
  serve p (.setSafe p leg levelA levelB delay) (setSafeBody p leg levelA levelB delay) s

/-- The filter of an input samples its pin low (R112, R166): from QUIET it begins QUALIFYING with a low time of 0, or is
ASSERTED at once where the filter time is 0; in the other states the event does not arise. -/
def State.sampleLow (s : State) (i : TripInput) : State :=
  match (s.input i).filter with
  | .quiet =>
    if (s.input i).filterTime = 0 then s.assertInput i
    else s.modInput i fun v => { v with filter := .qualifying 0 }
  | .qualifying _ | .asserted => s

/-- What a sample of the trip inputs brings about. They are sampled at the end of each microsecond of the housekeeping
oscillator, where no tenth of the next has passed; between two samples nothing is found yet (R166; that a row stands at the
beginning of the tenth under way is a DESIGN CHOICE, log entry 21). -/
def atSample (f : State → State) (s : State) : State := if s.hkoTenths = 0 then f s else s

/-- TRIP_INPUT_LOW (R112, R166): the pin goes low, and where it is sampled now the filter takes the event; a row that comes
between two samples moves the pin alone, and the next sample that finds it low brings the event (`State.dueSample`; DESIGN
CHOICE, log entry 21). In RESET and START-UP the pin is not read (R162). -/
def execTripInputLow (i : TripInput) (s : State) : Host.Outcome State Fault Refusal :=
  inOperation (atSample fun t => t.sampleLow i) (s.modInput i fun v => { v with pinLow := true })

/-- TRIP_INPUT_QUALIFIED (R112): the low time of a QUALIFYING filter has reached the filter time in force; where a MAP TRIP
taken first has put that time off, the filter goes on qualifying (R113). -/
def execTripInputQualified (i : TripInput) (s : State) : Host.Outcome State Fault Refusal :=
  inOperation
    (fun t =>
      match (t.input i).filter with
      | .qualifying low => if (t.input i).filterTime ≤ low then t.assertInput i else t
      | .quiet | .asserted => t) s

/-- TRIP_INPUT_HIGH (R112, R166): the pin goes high, and where it is sampled now the filter returns to QUIET; between two
samples the pin moves alone, and the next sample that finds it high brings the event (DESIGN CHOICE, log entry 21). No trip is
cleared. -/
def execTripInputHigh (i : TripInput) (s : State) : Host.Outcome State Fault Refusal :=
  inOperation (atSample fun t => t.modInput i fun v => { v with filter := .quiet })
    (s.modInput i fun v => { v with pinLow := false })

/-- SAFE_WAIT_EXPIRY (R118): a safe wait has reached 0; one that a SET SAFE taken first has replaced goes on (R119). -/
def execSafeWaitExpiry (l : Leg) (s : State) : Host.Outcome State Fault Refusal :=
  inOperation (fun t => if (t.leg l).safeWait = some 0 then t.modLeg l LegState.endSafeWait else t) s

/-- CLOCK_LOST (R122, R123): a monitor that reads PRESENT declares LOST, raises its CLOCK record and then trips every group
that is not STOPPED (DESIGN CHOICE, log entry 2). -/
def execClockLost (s : State) : Host.Outcome State Fault Refusal :=
  inOperation
    (fun t =>
      if t.monitor.isLost then t
      else ({ t with monitor := .lost 0, refclkGap := 0 }.raiseAll (.clock false)).tripGroups t.lossTrips .clock) s

/-- RESTORE_COUNT_RESTART (R122): a gap while LOST starts the restore count again from 0 (DESIGN CHOICE, log entry 2), and the
measure of REFCLK begins anew, so that a REFCLK that stays away is read as one gap after another (DESIGN CHOICE, log entry
18). -/
def execRestoreCountRestart (s : State) : Host.Outcome State Fault Refusal :=
  inOperation (fun t => if t.monitor.isLost then { t with monitor := .lost 0, refclkGap := 0 } else t) s

/-- CLOCK_RESTORED (R122): a monitor that reads LOST declares PRESENT and raises its CLOCK record; no group changes
state (R123; DESIGN CHOICE, log entry 2). -/
def execClockRestored (s : State) : Host.Outcome State Fault Refusal :=
  inOperation
    (fun t => if t.monitor.isLost then { t with monitor := .present }.raiseAll (.clock true) else t) s

end Sys2Proof.Machine
end

