-- ==== Sys2Proof/Machine/Queues.lean ====
section
/-! DEFINITION. The event queue family: READ EVENT, its completion, and SET NOTIFY (chapter 7). -/

namespace Sys2Proof.Machine

/-- READ EVENT (R130, R131): the head record with what stands behind it and the marker, or QUEUE_EMPTY with the marker;
nothing is removed before the response is completed. -/
def readEventBody (p : Port) (s : State) : Reply :=
  match (s.port p).queue with
  | e :: rest =>
    { state := s
      resp := { result := .ok, data := e.bytes ++ [byteOf rest.length, flagCode (s.port p).overrun] }
      after := .readHead }
  | [] =>
    { state := s, resp := { result := .queueEmpty, data := [flagCode (s.port p).overrun] }, after := .readEmpty false }

/-- READ_EVENT (R130, R131). -/
def execReadEvent (p : Port) (s : State) : Host.Outcome State Fault Refusal :=
  serve p (.readEvent p) (readEventBody p) s

/-- SET NOTIFY (R134): the previous mask and the new one. -/
def setNotifyBody (p : Port) (mask : Byte) (s : State) : Reply :=
  accept (s.modPort p fun q => { q with notify := mask }) [(s.port p).notify, mask]

/-- SET_NOTIFY (R134). -/
def execSetNotify (p : Port) (mask : Byte) (s : State) : Host.Outcome State Fault Refusal :=
  serve p (.setNotify p mask) (setNotifyBody p mask) s

/-- READ_EVENT_COMPLETED (R130, R131, R132). -/
def execReadEventCompleted (p : Port) (s : State) : Host.Outcome State Fault Refusal :=
  inOperation (fun t => t.completeRead p) s

end Sys2Proof.Machine
end

