-- ==== Sys2Proof/Machine/Sets.lean ====
section
/-! DEFINITION. The set unit family: OPEN SET, STAGE LEG, STAGE GROUP, UNSTAGE, ABANDON, ACK SET and SET STATUS
(chapter 3). -/

namespace Sys2Proof.Machine

/-- OPEN SET (R48, R51): a new empty set with the next id that is not in use. -/
def openSetBody (p : Port) (group : Byte) (s : State) : Reply :=
  match groupArg group with
  | none => refuse s .badArg []
  | some g =>
    match s.openSetOf p with
    | some c => refuse s .setOpen [byteOf c.id]
    | none =>
      if Config.tableSlots ≤ s.sets.length then refuse s .tableFull []
      else
        let id := s.newId
        accept
          { s with
            sets := s.sets ++ [{ id := id, owner := p, group := g, body := .opened [] }]
            nextId := idAfter id }
          [byteOf id, group]

/-- OPEN_SET (R51). -/
def execOpenSet (p : Port) (group : Byte) (s : State) : Host.Outcome State Fault Refusal :=
  serve p (.openSet p group) (openSetBody p group) s

/-- An edit placed in an edit list: it replaces the edit of its item in place (R55), or joins the end (R46). -/
def placeEdit (e : Edit) (es : List Edit) : List Edit :=
  if es.any fun x => decide (x.item = e.item) then es.map fun x => if x.item = e.item then e else x else es ++ [e]

/-- An OPEN set with its edit list rewritten. -/
def ChangeSet.withEdits (f : List Edit → List Edit) (c : ChangeSet) : ChangeSet :=
  match c.body with
  | .opened es => { c with body := .opened (f es) }
  | .pending _ _ _ | .done _ _ => c

/-- The last step of STAGE LEG and STAGE GROUP: a new item needs a free pool slot, and the edit is placed (R53, R54, R55).
The response carries the set id, the number of edits and the free pool slots after the command. -/
def stageEdit (s : State) (c : ChangeSet) (e : Edit) : Reply :=
  if !c.hasEdit e.item && decide (Config.poolSlots ≤ s.poolUsed) then refuse s .poolFull []
  else
    let s1 := s.updateSet c.id (ChangeSet.withEdits (placeEdit e))
    accept s1 [byteOf c.id, byteOf (placeEdit e c.edits).length, byteOf s1.poolFree]

/-- STAGE LEG (R53). -/
def stageLegBody (p : Port) (leg : Byte) (record : RawPattern) (s : State) : Reply :=
  match legArg leg with
  | none => refuse s .badArg []
  | some l =>
    match s.openSetOf p with
    | none => refuse s .noOpenSet []
    | some c =>
      if !s.holds p (.leg l) then refuse s .notHolder []
      else if (s.leg l).group ≠ c.group then refuse s .wrongGroup []
      else
        match patternArg record with
        | none => refuse s .badArg []
        | some r => stageEdit s c (.leg l r)

/-- STAGE_LEG (R53, R58). -/
def execStageLeg (p : Port) (leg : Byte) (record : RawPattern) (s : State) : Host.Outcome State Fault Refusal :=
  serveSetWork p (.stageLeg p leg record) (stageLegBody p leg record) s

/-- STAGE GROUP (R54). -/
def stageGroupBody (p : Port) (group : Byte) (record : RawTiming) (s : State) : Reply :=
  match groupArg group with
  | none => refuse s .badArg []
  | some g =>
    match s.openSetOf p with
    | none => refuse s .noOpenSet []
    | some c =>
      if !s.holds p (.group g) then refuse s .notHolder []
      else if g ≠ c.group then refuse s .wrongGroup []
      else
        match timingArg record with
        | none => refuse s .badArg []
        | some t => stageEdit s c (.group g t)

/-- STAGE_GROUP (R54, R58). -/
def execStageGroup (p : Port) (group : Byte) (record : RawTiming) (s : State) : Host.Outcome State Fault Refusal :=
  serveSetWork p (.stageGroup p group record) (stageGroupBody p group record) s

/-- UNSTAGE (R56). -/
def unstageBody (p : Port) (item : Byte) (s : State) : Reply :=
  match itemArg item with
  | none => refuse s .badArg []
  | some i =>
    match s.openSetOf p with
    | none => refuse s .noOpenSet []
    | some c =>
      if !c.hasEdit i then refuse s .badArg []
      else
        let drop (es : List Edit) : List Edit := es.filter fun e => decide (e.item ≠ i)
        accept (s.updateSet c.id (ChangeSet.withEdits drop)) [byteOf c.id, byteOf (drop c.edits).length]

/-- UNSTAGE (R56). -/
def execUnstage (p : Port) (item : Byte) (s : State) : Host.Outcome State Fault Refusal :=
  serve p (.unstage p item) (unstageBody p item) s

/-- ABANDON (R52). -/
def abandonBody (p : Port) (s : State) : Reply :=
  match s.openSetOf p with
  | none => refuse s .noOpenSet []
  | some c => accept (s.removeSet c.id) [byteOf c.id, byteOf c.edits.length]

/-- ABANDON (R52). -/
def execAbandon (p : Port) (s : State) : Host.Outcome State Fault Refusal :=
  serve p (.abandon p) (abandonBody p) s

/-- ACK SET (R60). The failing item of a set that did not fail is sent as 0xFF, which R62 states for SET STATUS alone: DESIGN
CHOICE, log entry 15. -/
def ackSetBody (p : Port) (setId : Byte) (s : State) : Reply :=
  match s.ownSet p setId.toNat with
  | none => refuse s .noSet []
  | some c =>
    if c.isDone then accept (s.removeSet c.id) [c.outcomeCode, c.reasonCode, c.failingItem]
    else refuse s .setState [c.stateCode]

/-- ACK_SET (R60). -/
def execAckSet (p : Port) (setId : Byte) (s : State) : Host.Outcome State Fault Refusal :=
  serve p (.ackSet p setId) (ackSetBody p setId) s

/-- SET STATUS (R62). -/
def setStatusBody (p : Port) (setId : Byte) (s : State) : Reply :=
  match s.ownSet p setId.toNat with
  | none => refuse s .noSet []
  | some c => accept s c.statusBytes

/-- SET_STATUS (R62). -/
def execSetStatus (p : Port) (setId : Byte) (s : State) : Host.Outcome State Fault Refusal :=
  serve p (.setStatus p setId) (setStatusBody p setId) s

end Sys2Proof.Machine
end

