-- ==== Sys2Proof/Machine/Dispatch.lean ====
section
/-! DEFINITION. The meaning of every row of the table: one arm per constructor, each one call of its meaning. -/

namespace Sys2Proof.Machine

-- The effect of a command or event on everything but the queue.
def exec (i : Instr) (s : State) : Host.Outcome State Fault Refusal :=
  match i with
  | .identify port => Sys2Proof.Machine.execIdentify port s
  | .portStatus port named => Sys2Proof.Machine.execPortStatus port named s
  | .readEvent port => Sys2Proof.Machine.execReadEvent port s
  | .setNotify port mask => Sys2Proof.Machine.execSetNotify port mask s
  | .portReset port named => Sys2Proof.Machine.execPortReset port named s
  | .deviceReset port => Sys2Proof.Machine.execDeviceReset port s
  | .claim port mask => Sys2Proof.Machine.execClaim port mask s
  | .release port mask => Sys2Proof.Machine.execRelease port mask s
  | .seize port mask => Sys2Proof.Machine.execSeize port mask s
  | .setFallback port item value => Sys2Proof.Machine.execSetFallback port item value s
  | .setLiveness port named timeout => Sys2Proof.Machine.execSetLiveness port named timeout s
  | .readLeases port => Sys2Proof.Machine.execReadLeases port s
  | .openSet port group => Sys2Proof.Machine.execOpenSet port group s
  | .stageLeg port leg record => Sys2Proof.Machine.execStageLeg port leg record s
  | .stageGroup port group record => Sys2Proof.Machine.execStageGroup port group record s
  | .unstage port item => Sys2Proof.Machine.execUnstage port item s
  | .abandon port => Sys2Proof.Machine.execAbandon port s
  | .seal port form value => Sys2Proof.Machine.execSeal port form value s
  | .withdraw port setId => Sys2Proof.Machine.execWithdraw port setId s
  | .ackSet port setId => Sys2Proof.Machine.execAckSet port setId s
  | .setStatus port setId => Sys2Proof.Machine.execSetStatus port setId s
  | .start port group => Sys2Proof.Machine.execStart port group s
  | .stop port group form => Sys2Proof.Machine.execStop port group form s
  | .configureGroup port group sync stopOutput => Sys2Proof.Machine.execConfigureGroup port group sync stopOutput s
  | .assignLeg port leg group => Sys2Proof.Machine.execAssignLeg port leg group s
  | .trip port mask => Sys2Proof.Machine.execTrip port mask s
  | .clearTrip port group => Sys2Proof.Machine.execClearTrip port group s
  | .mapTrip port input mask time => Sys2Proof.Machine.execMapTrip port input mask time s
  | .setSafe port leg levelA levelB delay => Sys2Proof.Machine.execSetSafe port leg levelA levelB delay s
  | .readActive port item => Sys2Proof.Machine.execReadActive port item s
  | .readPending port item => Sys2Proof.Machine.execReadPending port item s
  | .readOutputs port => Sys2Proof.Machine.execReadOutputs port s
  | .badRequest port bytes => Sys2Proof.Machine.execBadRequest port bytes s
  | .malformed port cmd len => Sys2Proof.Machine.execMalformed port cmd len s
  | .selectAsserted port => Sys2Proof.Machine.execSelectAsserted port s
  | .selectReleased port whole => Sys2Proof.Machine.execSelectReleased port whole s
  | .readEventCompleted port => Sys2Proof.Machine.execReadEventCompleted port s
  | .portResetEffect port whole => Sys2Proof.Machine.execPortResetEffect port whole s
  | .deviceResetEffect port whole => Sys2Proof.Machine.execDeviceResetEffect port whole s
  | .livenessExpiry port => Sys2Proof.Machine.execLivenessExpiry port s
  | .fallbackHalt group => Sys2Proof.Machine.execFallbackHalt group s
  | .tick group => Sys2Proof.Machine.execTick group s
  | .frameEnd group => Sys2Proof.Machine.execFrameEnd group s
  | .syncEdge group rising => Sys2Proof.Machine.execSyncEdge group rising s
  | .tripInputLow input => Sys2Proof.Machine.execTripInputLow input s
  | .tripInputQualified input => Sys2Proof.Machine.execTripInputQualified input s
  | .tripInputHigh input => Sys2Proof.Machine.execTripInputHigh input s
  | .safeWaitExpiry leg => Sys2Proof.Machine.execSafeWaitExpiry leg s
  | .clockLost => Sys2Proof.Machine.execClockLost s
  | .restoreCountRestart => Sys2Proof.Machine.execRestoreCountRestart s
  | .clockRestored => Sys2Proof.Machine.execClockRestored s
  | .powerOn straps => Sys2Proof.Machine.execPowerOn straps s
  | .powerFail => Sys2Proof.Machine.execPowerFail s
  | .resetnAsserted => Sys2Proof.Machine.execResetnAsserted s
  | .resetnReleased straps => Sys2Proof.Machine.execResetnReleased straps s
  | .startUpComplete => Sys2Proof.Machine.execStartUpComplete s

end Sys2Proof.Machine
end

