-- ==== Sys2Proof/Machine/Time.lean ====
section
/-! DEFINITION. What the part does when no command waits: one thing happens that no row of the table stands for, chosen
freely (log entry 1): a tenth of a microsecond passing, an edge of REFCLK, a level of a sync pin, of a trip pin
or of a serial clock, or a notice reaching a group timer. What falls due is put in the queue as the rows of the table that stand for it,
in a free order (log entry 6). -/

namespace Sys2Proof.Machine

/-- A command placed among those already placed. -/
def placeAt (x : Instr) : List Instr → Nat → List Instr
  | [], _ => [x]
  | y :: ys, 0 => x :: y :: ys
  | y :: ys, n + 1 => y :: placeAt x ys n

/-- Events that fall due together, in the order the free choices from the n-th on give them: the owning blocks take them in
either order (section "Conventions", R153). -/
def arrange : Nat → List Instr → List Instr
  | _, [] => []
  | n, x :: xs => placeAt x (arrange (n + 1) xs) (Config.togetherOrder n % (xs.length + 1))

/-- Rows in an order that took some free choices are put in the queue. -/
def State.enqueue (s : State) (rows : List Instr) (made : Nat) : State :=
  { s with pending := s.pending ++ rows, choices := s.choices + made }

/-- Due events are put in the queue in a free order. -/
def State.enqueueDue (s : State) (due : List Instr) : State := s.enqueue (arrange s.choices due) due.length

/-- The row of a group timer that comes to a fallback HALT notice on its way to it (R37). -/
def State.dueNotice (s : State) (g : Group) : List Instr :=
  if (s.group g).haltNotices = 0 then [] else [.fallbackHalt g]

/-- A time of the housekeeping oscillator is up with a tenth of a microsecond: it must be at the latest tenth of its ±10 %, and
may be from the soonest on (R122, R165; DESIGN CHOICE, log entry 8). -/
def State.timeUp (s : State) (what : HkoTime) (tenths : Nat) : Bool :=
  decide (Config.latest what ≤ tenths) ||
    (decide (Config.soonest what ≤ tenths) && Config.timeUp what s.choices)

/-- The microsecond of the free-running time base ends with this tenth (R101, R118, R166). -/
def State.microEnds (s : State) : Bool := s.timeUp .microsecond (s.hkoTenths + 1)

/-- The microsecond under way completes a step of the 1 ms time base (R101). -/
def State.liveStepEnds (s : State) : Bool := decide (Config.liveStep ≤ s.hkoMicros + 1)

/-- The ports whose time remaining reaches 0 with this microsecond (R101, R104). -/
def State.dueExpiries (s : State) : List Instr :=
  if s.liveStepEnds then
    allPorts.filterMap fun p =>
      match (s.port p).timer with
      | some n => if n ≤ 1 then some (.livenessExpiry p) else none
      | none => none
  else []

/-- What the sample of a trip input at the end of a microsecond gives its filter (R112, R166). -/
def State.dueSample (s : State) (i : TripInput) : Option Instr :=
  match (s.input i).filter, (s.input i).pinLow with
  | .quiet, true => some (.tripInputLow i)
  | .quiet, false => none
  | .qualifying low, true => if (s.input i).filterTime ≤ low + 1 then some (.tripInputQualified i) else none
  | .qualifying _, false => some (.tripInputHigh i)
  | .asserted, true => none
  | .asserted, false => some (.tripInputHigh i)

/-- The safe waits that reach 0 with this microsecond (R118). -/
def State.dueWaits (s : State) : List Instr :=
  allLegs.filterMap fun l =>
    match (s.leg l).safeWait with
    | some n => if n ≤ 1 then some (.safeWaitExpiry l) else none
    | none => none

/-- What the monitor finds with this tenth: a gap of REFCLK, or a restore count of 100 µs without one (R122, R165; DESIGN
CHOICE, log entries 8 and 18). -/
def State.dueClock (s : State) : List Instr :=
  match s.monitor with
  | .present => if s.timeUp .gap (s.refclkGap + 1) then [.clockLost] else []
  | .lost n =>
    if s.timeUp .gap (s.refclkGap + 1) then [.restoreCountRestart]
    else if s.timeUp .restore (n + 1) then [.clockRestored]
    else []

/-- Everything that falls due with this tenth: what the monitor finds, and where the microsecond ends with it, what the
microsecond brings. -/
def State.dueEvents (s : State) : List Instr :=
  (if s.microEnds then s.dueExpiries ++ allInputs.filterMap s.dueSample ++ s.dueWaits else []) ++ s.dueClock

/-- The low time of a QUALIFYING filter counts a further low sample (R111, R166). -/
def Filter.count : Filter → Filter
  | .qualifying low => .qualifying (low + 1)
  | .quiet => .quiet
  | .asserted => .asserted

/-- The restore count counts a tenth of a microsecond while LOST (R122). -/
def Monitor.count : Monitor → Monitor
  | .lost n => .lost (n + 1)
  | .present => .present

/-- The counters of the housekeeping oscillator advance by one microsecond: the 1 ms time base and with it the liveness
timers (R101), the low times (R166) and the safe waits (R118). -/
def State.countMicrosecond (s : State) : State :=
  { s with
    hkoMicros := if s.liveStepEnds then 0 else s.hkoMicros + 1
    ports := s.ports.map fun _ v =>
      { v with timer := if s.liveStepEnds then v.timer.map fun n => n - 1 else v.timer }
    inputs := s.inputs.map fun _ v => { v with filter := if v.pinLow then v.filter.count else v.filter }
    legs := s.legs.map fun _ v => { v with safeWait := v.safeWait.map fun n => n - 1 } }

/-- A tenth of a microsecond passes: the restore count and the measure of REFCLK advance (R122), and with the last tenth of a
microsecond the counters that count it. -/
def State.countTenth (s : State) : State :=
  { (if s.microEnds then s.countMicrosecond else s) with
    hkoTenths := if s.microEnds then 0 else s.hkoTenths + 1
    monitor := s.monitor.count
    refclkGap := s.refclkGap + 1 }

/-- REFCLK periods in a tick: 2 to the power of the active divider code (R23). -/
def GroupState.divisor (v : GroupState) : Nat := 2 ^ v.timing.divider

/-- An edge of REFCLK: it is one more period of the tick under way of each group whose ticks run (R23), it samples the sync
inputs (R165), and the monitor's measure begins anew (R122). -/
def State.countRefclk (s : State) : State :=
  { s with
    refclkGap := 0
    groups := s.groups.map fun g v => { v with division := if s.ticking g then v.division + 1 else v.division }
    syncs := s.syncs.map fun _ v => { v with sample := v.pinHigh } }

/-- The tick under way of a group ends with this edge of REFCLK: the next tick starts, or the frame ends (R23, R24). -/
def State.dueTick (s : State) (g : Group) : List Instr :=
  if s.ticking g && decide ((s.group g).divisor ≤ (s.group g).division + 1) then
    [if s.lastTick g then .frameEnd g else .tick g]
  else []

/-- The level of a sync input is recognised with this edge of REFCLK: it stood at the edge before as well, and it is another
level than the one last recognised (R165). -/
def State.dueEdge (s : State) (g : Group) : List Instr :=
  if (s.syncInput g).pinHigh = (s.syncInput g).sample ∧ (s.syncInput g).pinHigh ≠ (s.syncInput g).level then
    [.syncEdge g (s.syncInput g).pinHigh]
  else []

/-- Everything that an edge of REFCLK brings about. -/
def State.dueRefclk (s : State) : List Instr := allGroups.flatMap fun g => s.dueTick g ++ s.dueEdge g

/-- A row that does not occur because of one before it: where a resync edge is taken first, it cuts the tick under way short,
so neither the next tick of the old frame nor its natural end follows, and tick 0 of the new frame lasts its full divider
count from the edge (R23, R34). -/
def State.isStale (s : State) (rows : List Instr) (c : Instr) : Bool :=
  allGroups.any fun g =>
    decide (c = .tick g ∨ c = .frameEnd g) && s.cutsFrame g (s.syncInput g).pinHigh &&
      decide (rows.idxOf (.syncEdge g (s.syncInput g).pinHigh) < rows.idxOf c)

/-- What occurs of the rows that an edge of REFCLK brings, in the order in which they are taken. -/
def State.refclkRows (s : State) (rows : List Instr) : List Instr := rows.filter fun c => !s.isStale rows c

/-- One thing happens on the board or in the part, and what falls due with it joins the queue. -/
def State.happen (s : State) (h : Happening) : State :=
  match h with
  | .oscillator => s.countTenth.enqueueDue s.dueEvents
  | .refclk => s.countRefclk.enqueue (s.refclkRows (arrange s.choices s.dueRefclk)) s.dueRefclk.length
  | .syncPin g high => s.modSync g fun v => { v with pinHigh := high }
  | .tripPin i low => s.modInput i fun v => { v with pinLow := low }
  | .sck p high data => (s.modPort p (PortState.clockLevel high data)).enqueueDue (s.clockRows p high data)
  | .notice g => s.enqueueDue (s.dueNotice g)

/-- The part with no command waiting (DESIGN CHOICE, log entry 1): outside OPERATING nothing happens that the part reads
(R162), and in OPERATING one free thing does. -/
def State.idle (s : State) : State :=
  if s.operating then { s with choices := s.choices + 1 }.happen (Config.happens s.choices) else s

end Sys2Proof.Machine
end

