-- ==== Sys2Proof/WellFormed.lean ====
section
/-! DEFINITION. Which terms of `Instr` stand for a step the part can be given. Every argument byte is a byte the wire can
carry, so a command row is always well formed: a value out of its range is refused by the command's own rule. -/

namespace Sys2Proof

/-- Whether the bytes are a request that R149 answers CHECK, UNKNOWN or LENGTH. -/
def isBadRequest (p : Port) (bytes : List Byte) : Bool :=
  match classifyRequest p bytes with
  | .bad _ => true
  | .notWhole | .malformed | .good _ => false

/-- BAD_REQUEST carries a whole request that is bad (R149), and MALFORMED a LEN greater than 16 (R148). -/
def Instr.wellFormed : Instr → Bool
  | .badRequest p bytes => isBadRequest p bytes
  | .malformed _ _ len => decide (16 < len.toNat)
  | .identify _ | .portStatus _ _ | .readEvent _ | .setNotify _ _ | .portReset _ _ | .deviceReset _ | .claim _ _
  | .release _ _ | .seize _ _ | .setFallback _ _ _ | .setLiveness _ _ _ | .readLeases _ | .openSet _ _
  | .stageLeg _ _ _ | .stageGroup _ _ _ | .unstage _ _ | .abandon _ | .seal _ _ _ | .withdraw _ _ | .ackSet _ _
  | .setStatus _ _ | .start _ _ | .stop _ _ _ | .configureGroup _ _ _ _ | .assignLeg _ _ _ | .trip _ _
  | .clearTrip _ _ | .mapTrip _ _ _ _ | .setSafe _ _ _ _ _ | .readActive _ _ | .readPending _ _ | .readOutputs _
  | .selectAsserted _ | .selectReleased _ _ | .readEventCompleted _ | .portResetEffect _ _ | .deviceResetEffect _ _
  | .livenessExpiry _ | .fallbackHalt _ | .tick _ | .frameEnd _ | .syncEdge _ _ | .tripInputLow _
  | .tripInputQualified _ | .tripInputHigh _ | .safeWaitExpiry _ | .clockLost | .restoreCountRestart | .clockRestored
  | .powerOn _ | .powerFail | .resetnAsserted | .resetnReleased _ | .startUpComplete => true

end Sys2Proof
end

