-- ==== Sys2Proof/Safety.lean ====
section
/-! DEFINITION. What counts as a safe run: the laws the manual states of every state of the part, and the words the
statements are written in: the frame of a command, what becomes of outputs and sets, and the great events. -/

namespace Sys2Proof.Machine

/-! ### The laws -/

/-- The two outputs of a leg are never active together, and its two safe levels never both active (R5, R111). -/
def InterlockLaw (s : State) : Prop :=
  ∀ l, ¬((s.leg l).outA.state = .active ∧ (s.leg l).outB.state = .active) ∧
    ¬((s.leg l).safeA = true ∧ (s.leg l).safeB = true)

/-- A port's event queue holds at most 12 records (R126). -/
def QueueLaw (s : State) : Prop := ∀ p, (s.port p).queue.length ≤ 12

/-- The number of the port's OPEN sets. -/
def State.openCount (s : State) (p : Port) : Nat := s.sets.countP fun c => decide (c.owner = p) && c.isOpen

/-- The set table holds at most 12 sets, each port owns at most one OPEN set and at most four PENDING or DONE sets, at
most 64 edit slots are in use, the ids are from 1 to 255 and no two sets share one, and no set holds two edits of one item
(R45, R46, R47, R48, R49). -/
structure TableLaw (s : State) : Prop where
  slots : s.sets.length ≤ 12
  pool : s.poolUsed ≤ 64
  opened : ∀ p, s.openCount p ≤ 1
  limit : ∀ p, s.pendingCount p + s.doneCount p ≤ 4
  ids : (s.sets.map ChangeSet.id).Nodup
  idRange : ∀ c ∈ s.sets, 1 ≤ c.id ∧ c.id ≤ 255
  nextRange : 1 ≤ s.nextId ∧ s.nextId ≤ 255
  single : ∀ c ∈ s.sets, (c.edits.map Edit.item).Nodup

/-- Every item with an edit in an OPEN or PENDING set is leased to the set's owner, and every edit is for a leg of the set's
group or for that group itself (R46, R57). -/
def LeaseLaw (s : State) : Prop :=
  ∀ c ∈ s.sets, ∀ e ∈ c.edits, s.holder e.item = some c.owner ∧
    (∀ l, e.item = .leg l → (s.leg l).group = c.group) ∧ (∀ g, e.item = .group g → g = c.group)

/-- No item carries an edit in more than one PENDING set (R72). -/
def PendingItemLaw (s : State) : Prop :=
  s.sets.Pairwise fun a b => a.isPending = true → b.isPending = true → ∀ i, ¬(a.hasEdit i = true ∧ b.hasEdit i = true)

/-- The target of every PENDING set lies from 1 to 65535 frames ahead of its group's frame number (R77). -/
def DistanceLaw (s : State) : Prop :=
  ∀ c ∈ s.sets, c.isPending = true → 1 ≤ s.distance c ∧ s.distance c ≤ 65535

/-- A TRIPPED group has no PENDING set (R88). -/
def TrippedLaw (s : State) : Prop :=
  ∀ c ∈ s.sets, c.isPending = true → (s.group c.group).run ≠ .tripped

/-- A group's cause set is empty while the group is not TRIPPED and holds a cause while it is (R111). -/
def CauseLaw (s : State) : Prop := ∀ g, (s.group g).run = .tripped ↔ (s.group g).causes ≠ CauseSet.empty

/-- While the monitor reads LOST every group is STOPPED or TRIPPED, and outside OPERATING the monitor is in LOST
(R39, R123, R124). -/
def ClockLaw (s : State) : Prop :=
  (s.condition ≠ .operating → s.monitor.isLost = true) ∧
    (s.monitor.isLost = true → ∀ g, (s.group g).run = .stopped ∨ (s.group g).run = .tripped)

/-- A port's liveness timer is RUNNING exactly while the port holds an item and its timeout is not 0 (R101). -/
def TimerLaw (s : State) : Prop :=
  ∀ p, (s.port p).timer.isSome = true ↔ s.holdsAny p = true ∧ (s.port p).timeout ≠ 0

/-- Every active record passes the checks of section 1.4 against the active period of its leg's group, and every period,
active or staged, is at least 4 ticks (R6, R23, R79). -/
structure PatternLaw (s : State) : Prop where
  periods : ∀ g, 4 ≤ (s.group g).timing.period
  staged : ∀ c ∈ s.sets, ∀ g t, Edit.group g t ∈ c.edits → 4 ≤ t.period
  records : ∀ l, checkRecord (s.leg l).record (s.group (s.leg l).group).timing.period = none

/-! ### Commands and their frames -/

/-- The part is in OPERATING and the port in REQUEST, so that a check byte takes a command there (R147, R149, R162). -/
def CanTake (s : State) (p : Port) : Prop := s.condition = .operating ∧ (s.port p).txn = .request

/-- The port has answered: it is in RESPONSE with the response, and what its release or completion still brings about. -/
def Answered (t : State) (p : Port) (r : Result) (data : List Byte) (after : After) : Prop :=
  (t.port p).txn = .response { result := r, data := data } after

/-- The command is taken and answered on port `p`, and leaves the state `t`. -/
def Answers (c : Instr) (p : Port) (s t : State) (r : Result) (data : List Byte) (after : After) : Prop :=
  exec c s = .next t ∧ Answered t p r data after

/-- The timer of a port after a good transaction (R102). -/
def PortState.restarted (q : PortState) : Option Nat := q.timer.map fun _ => q.timeout

/-- The timer of port `p` after an accepted STAGE or SEAL: restarted (R102), or at 0 still where it stood at 0 and the expiry
that came together with the command follows it (R58, R65). Which of the two is a free value, log entry 20. -/
def setWorkTimer (p : Port) (s : State) : Option Nat :=
  if (s.port p).timer = some 0 ∧ Config.expiryFollows p s.choices = true then some 0 else (s.port p).restarted

/-- A port after records were raised to its queue, in order: each joins the end of a list of fewer than twelve, and is
discarded from a full one, which sets the marker and spoils the clearing read of R131 (R126, R129). -/
def PortState.afterRecords (q : PortState) (es : List Event) : PortState :=
  { q with
    queue := q.queue ++ es.take (12 - q.queue.length)
    overrun := q.overrun || decide (12 - q.queue.length < es.length)
    txn := if 12 - q.queue.length < es.length then q.txn.noteDiscard else q.txn }

/-- No port is sent a record. -/
def noRecords : Port → List Event := fun _ => []

/-- Every port is sent one record (R128). -/
def toAll (e : Event) : Port → List Event := fun _ => [e]

/-- The ports after a transaction of port `p` in which records were raised: another port has its records, and port `p` has
its records, its transaction and the given timer; nothing else of a port changes. -/
def Served (p : Port) (es : Port → List Event) (timer : Option Nat) (s t : State) : Prop :=
  (∀ q, q ≠ p → t.port q = (s.port q).afterRecords (es q)) ∧
    t.port p = { (s.port p).afterRecords (es p) with
      txn := (t.port p).txn, line := (t.port p).line, timer := timer }

/-- The ports after an event that is no command, in which records were raised. -/
def Told (es : Port → List Event) (s t : State) : Prop := ∀ q, t.port q = (s.port q).afterRecords (es q)

/-- `t` is `s` but for the ports. -/
def PortsOnly (s t : State) : Prop := t = { s with ports := t.ports }

/-- Nothing but the transaction of port `p` itself: the frame of a refusal and of an inspection command (R138, R149). -/
def TransactionOnly (p : Port) (s t : State) : Prop :=
  PortsOnly s t ∧ Served p noRecords (s.port p).restarted s t

/-- The command is taken on port `p` and refused with a result and data, and nothing else happens (R149). -/
def Refuses (c : Instr) (p : Port) (s : State) (r : Result) (data : List Byte) : Prop :=
  ∃ t, Answers c p s t r data .none ∧ TransactionOnly p s t

/-- `t` is `s` but for the ports, and but for a leg's or group's holder (R92). -/
def HoldersOnly (s t : State) : Prop :=
  t = { s with
    ports := t.ports
    legs := s.legs.map fun l v => { v with holder := t.holder (.leg l) }
    groups := s.groups.map fun g v => { v with holder := t.holder (.group g) } }

/-! ### What becomes of outputs, legs and sets -/

/-- An output that becomes INACTIVE at once: one that was ACTIVE gets count 0 and the tick under way is not counted for it,
another keeps its count (R5, R9, R11). -/
def inactiveAtOnce (o : Output) : Output :=
  { state := .inactive, count := if o.state = .active then 0 else o.count,
    cut := if o.state = .active then true else o.cut }

/-- The forced OFF record of a record (R19). -/
def offRecord (r : PatternRecord) : PatternRecord :=
  { mode := .off, polarityA := r.polarityA, polarityB := r.polarityB, gap := r.gap, offsetA := 0, widthA := 0,
    offsetB := 0, widthB := 0 }

/-- A leg after a forced OFF write: the record alone in a TRIPPED group, and both outputs at once in another (R11). -/
def offLeg (tripped : Bool) (v : LegState) : LegState :=
  if tripped then { v with record := offRecord v.record }
  else { v with record := offRecord v.record, outA := inactiveAtOnce v.outA, outB := inactiveAtOnce v.outB }

/-- A leg of a group that enters STOPPED: IDLE makes both outputs INACTIVE (R9), HOLD keeps them (R10). -/
def restLeg (out : StopOutput) (v : LegState) : LegState :=
  match out with
  | .idle => { v with outA := inactiveAtOnce v.outA, outB := inactiveAtOnce v.outB }
  | .hold => v

/-- An output that passes to its safe level (R118). -/
def safeOutput (level : Bool) (delay : Nat) (o : Output) : Output :=
  if level = false then inactiveAtOnce o
  else if o.state = .active then o
  else if delay = 0 then { o with state := .active, count := 0 }
  else { o with state := .waiting }

/-- A leg that passes to its safe levels: its outputs, and its safe wait where one of them waits (R118, R119). -/
def safeLeg (v : LegState) : LegState :=
  { v with
    outA := safeOutput v.safeA v.safeDelay v.outA
    outB := safeOutput v.safeB v.safeDelay v.outB
    safeWait :=
      if v.safeDelay ≠ 0 ∧ (v.safeA = true ∧ v.outA.state ≠ .active ∨ v.safeB = true ∧ v.outB.state ≠ .active) then
        some v.safeDelay
      else none }

/-- The inactive count of an output at the start of a tick, before its state is set: advanced by one up to 1023 if the
output was inactive throughout the previous tick, and not at a start from rest; 0 for an ACTIVE output (R5). -/
def countAt (first : Bool) (o : Output) : Nat :=
  if o.state = .active then 0
  else if first = true ∨ o.cut = true then o.count
  else min 1023 (o.count + 1)

/-- An output at the start of a tick, by its demand and the other output's (R6). -/
def tickOutput (first demand otherDemand : Bool) (gap : Nat) (o other : Output) : Output :=
  if demand = false then { state := .inactive, count := countAt first o, cut := false }
  else if o.state = .active then { state := .active, count := 0, cut := false }
  else if otherDemand = false ∧ gap ≤ countAt first other then { state := .active, count := 0, cut := false }
  else { state := .waiting, count := countAt first o, cut := false }

/-- A leg at the start of tick `n` of its group (R3, R5, R6). -/
def tickLeg (first : Bool) (period n : Nat) (v : LegState) : LegState :=
  { v with
    outA := tickOutput first (demandA v.record period n) (demandB v.record period n) v.record.gap v.outA v.outB
    outB := tickOutput first (demandB v.record period n) (demandA v.record period n) v.record.gap v.outB v.outA }

/-- A PENDING set as it stands once cancelled, DONE with its target kept and its edits gone; another set as it is
(R45, R59). -/
def cancelledAs (why : CancelReason) (c : ChangeSet) : ChangeSet :=
  match c.body with
  | .pending _ target _ => { c with body := .done target (.cancelled why) }
  | .opened _ | .done _ _ => c

/-- The SET_CANCELLED records of the PENDING sets that a test picks, for their owner `q`, in seal order (R63, R64, R88). -/
def cancelRecords (s : State) (pick : ChangeSet → Bool) (why : CancelReason) (q : Port) : List Event :=
  (s.sets.filter fun c => c.isPending && pick c && decide (c.owner = q)).map fun c => .setCancelled c.id why

/-! ### Codes and layouts (sections 9.6 and 9.7) -/

/-- The results in the order of their codes, OK with code 0x00 (section 9.6). -/
def resultTable : List Result :=
  [.ok, .unknown, .length, .check, .badArg, .notSupervisor, .notHolder, .held, .noOpenSet, .setOpen, .portSetLimit,
    .tableFull, .poolFull, .wrongGroup, .itemPending, .inSet, .late, .far, .range, .gap, .overlap, .groupState, .noClock,
    .tripActive, .noSet, .setState, .emptySet, .queueEmpty, .truncated, .malformed]

/-- The code of a reason for failing (section 9.6). -/
def failReason (why : CheckFail) : Byte := match why with | .range => 1 | .gap => 2 | .overlap => 3

/-- The code of a reason for cancelling (section 9.6). -/
def cancelReason (why : CancelReason) : Byte := match why with | .leaseLost => 4 | .seized => 5 | .tripped => 6

/-- The code of a reason of a GROUP_STATE record (section 9.6). -/
def groupReason (why : GroupReason) : Byte :=
  match why with
  | .started => 8 | .armed => 9 | .syncStart => 10 | .halting => 11 | .fallbackHalt => 12 | .stoppedNow => 13
  | .halted => 14 | .budget => 15 | .cleared => 16

/-- The four bytes of a frame number, most significant first (R146). -/
def frameBytes (f : Frame) : List Byte :=
  [byteOf (f.toNat / 2 ^ 24), byteOf (f.toNat / 2 ^ 16), byteOf (f.toNat / 2 ^ 8), byteOf f.toNat]

/-- The two bytes of a number, most significant first (R146). -/
def numberBytes (n : Nat) : List Byte := [byteOf (n / 2 ^ 8), byteOf n]

/-- The byte of a run state (section 9.6). -/
def runByte (r : RunState) : Byte :=
  match r with | .stopped => 0 | .armed => 1 | .running => 2 | .halting => 3 | .tripped => 4

/-- The byte of a sync mode (R35). -/
def syncByte (m : SyncMode) : Byte :=
  match m with | .none => 0 | .startRise => 1 | .startFall => 2 | .resyncRise => 3 | .resyncFall => 4 | .resyncBoth => 5

/-- The byte of a stop-output mode (R35). -/
def stopByte (m : StopOutput) : Byte := match m with | .idle => 0 | .hold => 1

/-- The byte of a cause set: a bit for each cause, INPUT0 bit 0 (section 9.6). -/
def causesByte (c : CauseSet) : Byte :=
  byteOf ((if c.input0 = true then 1 else 0) + (if c.input1 = true then 2 else 0) + (if c.command = true then 4 else 0) +
    if c.clock = true then 8 else 0)

/-- The byte of a filter state (section 9.6). -/
def filterByte (f : Filter) : Byte := match f with | .quiet => 0 | .qualifying _ => 1 | .asserted => 2

/-- The byte of the monitor's state (section 9.6). -/
def monitorByte (m : Monitor) : Byte := match m with | .present => 0 | .lost _ => 1

/-- The byte of an interlock state (section 9.6). -/
def interlockByte (i : Interlock) : Byte := match i with | .inactive => 0 | .waiting => 1 | .active => 2

/-- The byte of a holder (section 9.6). -/
def holderByte (h : Option Port) : Byte := match h with | some p => byteOf (portNum p) | none => 0xFF

/-- The twelve bytes of a pattern record (R159, section 9.7). -/
def patternBytes (r : PatternRecord) : List Byte :=
  [match r.mode with | .off => 0 | .single => 1 | .complementary => 2 | .exclusive => 3,
    byteOf ((if r.polarityA = .activeLow then 1 else 0) + if r.polarityB = .activeLow then 2 else 0)] ++
    numberBytes r.gap ++ numberBytes r.offsetA ++ numberBytes r.widthA ++ numberBytes r.offsetB ++ numberBytes r.widthB

/-- The five bytes of a timing record (section 9.7). -/
def timingBytes (v : TimingRecord) : List Byte := numberBytes v.period ++ [byteOf v.divider] ++ numberBytes v.budget

/-- The eight bytes of an event record: kind, reason, object, set id and frame, with the absent values of R127 (R127, section
9.7). -/
def recordBytes : Event → List Byte
  | .setApplied id g frame => [1, 0, byteOf (groupNum g), byteOf id] ++ frameBytes frame
  | .setFailed id why item frame => [2, failReason why, byteOf (legNum item), byteOf id] ++ frameBytes frame
  | .setCancelled id why => [3, cancelReason why, 0xFF, byteOf id, 0, 0, 0, 0]
  | .leaseLost item why => [4, match why with | .timeout => 7 | .seized => 5, byteOf item.num, 0, 0, 0, 0, 0]
  | .groupState g why fn => [5, groupReason why, byteOf (groupNum g), 0] ++ frameBytes fn
  | .trip g cause =>
    [6, match cause with | .input0 => 17 | .input1 => 18 | .command => 19 | .clock => 20, byteOf (groupNum g), 0, 0, 0, 0, 0]
  | .clock restored => [7, if restored = true then 22 else 21, 0xFF, 0, 0, 0, 0, 0]
  | .portReset p bySupervisor => [8, if bySupervisor = true then 24 else 23, byteOf (portNum p), 0, 0, 0, 0, 0]

/-- The outcome, the reason and the failing item of a set (R62). -/
def outcomeBytes (c : ChangeSet) : List Byte :=
  match c.body with
  | .opened _ | .pending _ _ _ => [0, 0, 0xFF]
  | .done _ (.applied _) => [1, 0, 0xFF]
  | .done _ (.failed why l _) => [2, failReason why, byteOf (legNum l)]
  | .done _ (.cancelled why) => [3, cancelReason why, 0xFF]

/-- The code of a set's state (section 9.6). -/
def stateByte (c : ChangeSet) : Byte := match c.body with | .opened _ => 0 | .pending _ _ _ => 1 | .done _ _ => 2

/-- The fifteen bytes of a set's status (R62, section 9.7). -/
def statusLayout (c : ChangeSet) : List Byte :=
  [byteOf c.id, byteOf (groupNum c.group), stateByte c, byteOf c.edits.length] ++
    frameBytes (match c.body with | .opened _ => 0 | .pending _ target _ => target | .done target _ => target) ++
    outcomeBytes c ++
    frameBytes (match c.body with
      | .done _ (.applied f) | .done _ (.failed _ _ f) => f
      | .done _ (.cancelled _) | .opened _ | .pending _ _ _ => 0)

/-! ### The great events -/

/-- The group is tripped by a cause that reaches it while it is not TRIPPED (R116). -/
def newlyTripped (s : State) (pick : Group → Bool) (g : Group) : Bool :=
  pick g && decide ((s.group g).run ≠ .tripped)

/-- The cause is added to the cause set of a TRIPPED group (R117). -/
def causeAdded (s : State) (pick : Group → Bool) (c : Cause) (g : Group) : Bool :=
  pick g && decide ((s.group g).run = .tripped) && !(s.group g).causes.has c

/-- The records that a cause raises to port `q` for one group (R88, R116, R117). -/
def tripRecordsOf (s : State) (pick : Group → Bool) (c : Cause) (q : Port) (g : Group) : List Event :=
  if newlyTripped s pick g then cancelRecords s (fun k => decide (k.group = g)) .tripped q ++ [.trip g c]
  else if causeAdded s pick c g then [.trip g c]
  else []

/-- The records that a cause raises to port `q`: those of G0, then those of G1 (R116). -/
def tripRecords (s : State) (pick : Group → Bool) (c : Cause) (q : Port) : List Event :=
  tripRecordsOf s pick c q .g0 ++ tripRecordsOf s pick c q .g1

/-- A cause has reached the groups that a test picks: what it leaves in the groups, the legs and the sets (R38, R88, R116,
R117, R118). -/
structure TrippedBy (pick : Group → Bool) (c : Cause) (s t : State) : Prop where
  groups : ∀ g, t.group g =
    if newlyTripped s pick g then { s.group g with run := .tripped, causes := CauseSet.empty.add c }
    else if causeAdded s pick c g then { s.group g with causes := (s.group g).causes.add c }
    else s.group g
  legs : ∀ l, t.leg l = if newlyTripped s pick (s.leg l).group then safeLeg (s.leg l) else s.leg l
  sets : t.sets = s.sets.map fun k => if newlyTripped s pick k.group then cancelledAs .tripped k else k

/-- The set is due at frame `f` of group `g` (R78). -/
def dueAt (g : Group) (f : Frame) (c : ChangeSet) : Bool :=
  c.isPending && decide (c.group = g) && decide (c.target = f)

/-- The set is DONE and was applied. -/
def ChangeSet.wasApplied (d : ChangeSet) : Bool :=
  match d.body with
  | .done _ (.applied _) => true
  | .done _ (.failed _ _ _) | .done _ (.cancelled _) | .opened _ | .pending _ _ _ => false

/-- The edits that the due sets taken so far at frame `f` have put in force: those of the applied ones, each set paired with
what became of it (R80, R81). -/
def editsApplied (g : Group) (f : Frame) (taken : List (ChangeSet × ChangeSet)) : List Edit :=
  taken.flatMap fun (c, d) => if dueAt g f c && d.wasApplied then c.edits else []

/-- The state with edits in force: each record and timing that one of them carries in place of the active one (R80). -/
def State.withEdits (s : State) (es : List Edit) : State :=
  { s with
    legs := s.legs.map fun l v => { v with record := (stagedLeg es l).getD v.record }
    groups := s.groups.map fun g v => { v with timing := (stagedTiming es g).getD v.timing } }

/-- What becomes at frame `f` of a set validated against the state `u`: a due set is applied if it passes and fails with the
first failure otherwise, and another set stays as it is (R79, R80, R81). -/
def takenAt (g : Group) (f : Frame) (u : State) (c : ChangeSet) : ChangeSet :=
  if dueAt g f c then
    match u.validate g c.edits with
    | none => { c with body := .done f (.applied f) }
    | some (why, l) => { c with body := .done f (.failed why l f) }
  else c

/-- The record that the outcome of a set taken at a frame start raises to its owner (R80, R81). -/
def outcomeRecord (d : ChangeSet) : List Event :=
  match d.body with
  | .done _ (.applied f) => [.setApplied d.id d.group f]
  | .done _ (.failed why l f) => [.setFailed d.id why l f]
  | .done _ (.cancelled _) | .opened _ | .pending _ _ _ => []

/-- The records of a frame start at `f` for port `q`: one for each of its due sets, in seal order (R83). -/
def frameRecords (g : Group) (f : Frame) (s t : State) (q : Port) : List Event :=
  (s.sets.zip t.sets).flatMap fun (c, d) => if dueAt g f c && decide (c.owner = q) then outcomeRecord d else []

/-- The edit is in force. -/
def Edit.InForce (e : Edit) (t : State) : Prop :=
  match e with
  | .leg l r => (t.leg l).record = r
  | .group g timing => (t.group g).timing = timing

/-- A frame start of group `g` (R25, R26, R44, R78 to R83), but for the remaining budget and the records: FN is one more;
every due set is taken, in seal order (the order of the table, log entry 7), each against the state that the sets before it
have left; the edits of an applied set are in force together, and what no applied set edits stays; tick 0 is
evaluated with what is then in force. `first` says that the start is from rest. -/
structure FrameStarts (g : Group) (first : Bool) (s t : State) : Prop where
  group : t.group g = { s.group g with
    run := .running, tick := 0, division := 0, fn := (s.group g).fn + 1, timing := (t.group g).timing,
    remaining := (t.group g).remaining }
  others : ∀ h, h ≠ g → t.group h = s.group h
  count : t.sets.length = s.sets.length
  sets : ∀ n c, s.sets[n]? = some c →
    t.sets[n]? = some (takenAt g ((s.group g).fn + 1)
      (s.withEdits (editsApplied g ((s.group g).fn + 1) ((s.sets.take n).zip t.sets))) c)
  whole : ∀ c d, (c, d) ∈ s.sets.zip t.sets → dueAt g ((s.group g).fn + 1) c = true → d.wasApplied = true →
    ∀ e ∈ c.edits, e.InForce t
  keptRecords : ∀ l, (∀ c d, (c, d) ∈ s.sets.zip t.sets → dueAt g ((s.group g).fn + 1) c = true →
    d.wasApplied = true → c.hasEdit (.leg l) = false) → (t.leg l).record = (s.leg l).record
  keptTiming : (∀ c d, (c, d) ∈ s.sets.zip t.sets → dueAt g ((s.group g).fn + 1) c = true →
    d.wasApplied = true → c.hasEdit (.group g) = false) → (t.group g).timing = (s.group g).timing
  legs : ∀ l, t.leg l =
    if (s.leg l).group = g then
      tickLeg first (t.group g).timing.period 0 { s.leg l with record := (t.leg l).record }
    else s.leg l
  frame : t = { s with ports := t.ports, legs := t.legs, groups := t.groups, sets := t.sets }

/-- The state at an edge of REFCLK that brings an event about: the monitor's measure begins anew (R122, R165). -/
def clocked (s : State) : State := { s with refclkGap := 0 }

/-- The state at the edge of REFCLK at which a new level of a sync input is recognised (R165). -/
def synced (g : Group) (level : Bool) (s : State) : State :=
  { s with
    refclkGap := 0
    syncs := s.syncs.map fun k v => if k = g then { pinHigh := level, sample := level, level := level } else v }

/-- The sync mode is a RESYNC mode that selects the edge (R32). -/
def resyncSelects (m : SyncMode) (rising : Bool) : Prop :=
  m = .resyncRise ∧ rising = true ∨ m = .resyncFall ∧ rising = false ∨ m = .resyncBoth

/-- The sync mode is a START mode that selects the edge (R32). -/
def startSelects (m : SyncMode) (rising : Bool) : Prop :=
  m = .startRise ∧ rising = true ∨ m = .startFall ∧ rising = false

/-- The row `c` ends the frame under way of group `g` and leaves the clocks and the sync inputs as in `u`: FRAME_END at the
last tick, or past it (log entry 3), or a resync edge after tick 3 (R24, R34, R165). -/
def EndsFrame (g : Group) (c : Instr) (s u : State) : Prop :=
  c = .frameEnd g ∧ (s.group g).timing.period ≤ (s.group g).tick + 1 ∧ u = clocked s ∨
    4 ≤ (s.group g).tick ∧ ∃ rising, c = .syncEdge g rising ∧ (s.syncInput g).level ≠ rising ∧
      resyncSelects (s.group g).sync rising ∧ u = synced g rising s

/-- The row `c` starts a frame of group `g`: a START from rest, the selected edge in ARMED, or an ordinary frame end of a
RUNNING group whose budget does not end (R26, R28, R29, R33, R34, R78). -/
def StartsFrame (g : Group) (c : Instr) (s : State) : Prop :=
  (∃ p group, c = .start p group ∧ (s.port p).txn = .request ∧ group.toNat = groupNum g ∧
    s.holder (.group g) = some p ∧ (s.group g).run = .stopped ∧ s.monitor = .present ∧
    (s.group g).sync ≠ .startRise ∧ (s.group g).sync ≠ .startFall) ∨
  (∃ rising, c = .syncEdge g rising ∧ (s.syncInput g).level ≠ rising ∧ (s.group g).run = .armed ∧
    startSelects (s.group g).sync rising) ∨
  ((∃ u, EndsFrame g c s u) ∧ (s.group g).run = .running ∧
    ((s.group g).timing.budget = 0 ∨ 1 < (s.group g).remaining))

/-- The record that a leg is checked with: its staged record, else its active one (R74, R79). -/
def CheckedRecord (s : State) (es : List Edit) (l : Leg) (r : PatternRecord) : Prop :=
  .leg l r ∈ es ∨ (∀ x, .leg l x ∉ es) ∧ r = (s.leg l).record

/-- The period that a group's legs are checked against: that of the group edit, else the active one (R74, R79). -/
def CheckedPeriod (s : State) (g : Group) (es : List Edit) (period : Nat) : Prop :=
  (∃ timing, .group g timing ∈ es ∧ period = timing.period) ∨
    (∀ timing, .group g timing ∉ es) ∧ period = (s.group g).timing.period

/-- A leg of the group fails the checks with the edits in place (R16, R74). -/
def FailsWith (s : State) (g : Group) (es : List Edit) (l : Leg) (why : CheckFail) : Prop :=
  (s.leg l).group = g ∧
    ∃ r period, CheckedRecord s es l r ∧ CheckedPeriod s g es period ∧ checkRecord r period = some why

/-- A group enters STOPPED (R9, R10, R27, R30), but for the remaining budget and the record. -/
structure Stops (g : Group) (s t : State) : Prop where
  group : t.group g = { s.group g with run := .stopped, tick := 0, division := 0, remaining := (t.group g).remaining }
  others : ∀ h, h ≠ g → t.group h = s.group h
  legs : ∀ l, t.leg l = if (s.leg l).group = g then restLeg (s.group g).stopOutput (s.leg l) else s.leg l
  frame : t = { s with ports := t.ports, legs := t.legs, groups := t.groups }

/-! ### What happens while no command waits -/

/-- A time is up with a tenth of a microsecond: at the tenth `latest` it must be, and from the tenth `soonest` on it may be,
which is a free value (R122, R165; log entry 8). The idle step asks for it with the choice after its own. -/
def timeIsUp (soonest latest : Nat) (what : HkoTime) (tenths : Nat) (s : State) : Bool :=
  decide (latest ≤ tenths) || (decide (soonest ≤ tenths) && Config.timeUp what (s.choices + 1))

/-- The microsecond of the free-running time base ends with this tenth, 0.9 µs to 1.1 µs after the last (R101, R118). -/
def microsecondEnds (s : State) : Bool := timeIsUp 9 11 .microsecond (s.hkoTenths + 1) s

/-- A gap of REFCLK is read with this tenth: it ends more than 1.8 µs after the last edge, and at most 2.2 µs (R122, R165). -/
def gapIsRead (s : State) : Bool := timeIsUp 19 22 .gap (s.refclkGap + 1) s

/-- A tenth of a microsecond (R101, R112, R118, R122, R165, R166): the restore count and the measure of REFCLK move, and where
a microsecond of the housekeeping oscillator ends with it, every counter of that; and the rows that fall due join the queue in
some order. -/
structure TenthPasses (s t : State) : Prop where
  ports : ∀ q, t.port q = { s.port q with
    timer :=
      if microsecondEnds s = true ∧ 999 ≤ s.hkoMicros then (s.port q).timer.map fun n => n - 1 else (s.port q).timer }
  legs : ∀ l, t.leg l = { s.leg l with
    safeWait := if microsecondEnds s = true then (s.leg l).safeWait.map fun n => n - 1 else (s.leg l).safeWait }
  inputs : ∀ i, t.input i = { s.input i with
    filter := match (s.input i).filter with
      | .qualifying low =>
        if microsecondEnds s = true ∧ (s.input i).pinLow = true then .qualifying (low + 1) else .qualifying low
      | .quiet => .quiet
      | .asserted => .asserted }
  frame : t = { s with
    hkoTenths := if microsecondEnds s = true then 0 else s.hkoTenths + 1
    hkoMicros := if microsecondEnds s = true then (if 999 ≤ s.hkoMicros then 0 else s.hkoMicros + 1) else s.hkoMicros
    ports := t.ports, legs := t.legs, inputs := t.inputs
    monitor := match s.monitor with | .lost n => .lost (n + 1) | .present => .present
    refclkGap := s.refclkGap + 1, choices := t.choices, pending := t.pending }
  once : t.pending.Nodup
  due : ∀ c, c ∈ t.pending ↔
    microsecondEnds s = true ∧
      ((∃ p n, c = .livenessExpiry p ∧ 999 ≤ s.hkoMicros ∧ (s.port p).timer = some n ∧ n ≤ 1) ∨
      (∃ i, c = .tripInputLow i ∧ (s.input i).filter = .quiet ∧ (s.input i).pinLow = true) ∨
      (∃ i low, c = .tripInputQualified i ∧ (s.input i).filter = .qualifying low ∧ (s.input i).pinLow = true ∧
        (s.input i).filterTime ≤ low + 1) ∨
      (∃ i, c = .tripInputHigh i ∧ (s.input i).filter ≠ .quiet ∧ (s.input i).pinLow = false) ∨
      (∃ l n, c = .safeWaitExpiry l ∧ (s.leg l).safeWait = some n ∧ n ≤ 1)) ∨
    c = .clockLost ∧ s.monitor = .present ∧ gapIsRead s = true ∨
    c = .restoreCountRestart ∧ s.monitor ≠ .present ∧ gapIsRead s = true ∨
    ∃ n, c = .clockRestored ∧ s.monitor = .lost n ∧ gapIsRead s = false ∧ timeIsUp 900 1100 .restore (n + 1) s = true

/-- The row is the sync edge of a group that is recognised at an edge of REFCLK: the level stood at the edge before as well,
and it is another level than the one recognised last (R165). -/
def edgeRow (s : State) (g : Group) (c : Instr) : Prop :=
  c = .syncEdge g (s.syncInput g).pinHigh ∧ (s.syncInput g).pinHigh = (s.syncInput g).sample ∧
    (s.syncInput g).pinHigh ≠ (s.syncInput g).level

/-- The row is the next tick of a group, or the natural end of its frame, for which an edge of REFCLK completes the divider
count of the tick under way (R23, R24). -/
def tickRow (s : State) (g : Group) (c : Instr) : Prop :=
  ((s.group g).run = .running ∨ (s.group g).run = .halting) ∧
    2 ^ (s.group g).timing.divider ≤ (s.group g).division + 1 ∧
    ((s.group g).tick + 1 < (s.group g).timing.period ∧ c = .tick g ∨
      (s.group g).timing.period ≤ (s.group g).tick + 1 ∧ c = .frameEnd g)

/-- The edge of REFCLK recognises a sync edge that ends the frame under way of the group (R34, R165). -/
def resyncRow (s : State) (g : Group) : Prop :=
  edgeRow s g (.syncEdge g (s.syncInput g).pinHigh) ∧ ((s.group g).run = .running ∨ (s.group g).run = .halting) ∧
    resyncSelects (s.group g).sync (s.syncInput g).pinHigh ∧ 4 ≤ (s.group g).tick

/-- A rising edge of REFCLK (R23, R24, R34, R44, R122, R165): a period more of the tick under way of each group whose ticks
run, a sample of each sync input, and the rows that follow in some order. The next tick of a group or its natural frame end
comes before a resync edge of that group, or else does not come, so that tick 0 of the new frame lasts its full divider
count. -/
structure RefclkRises (s t : State) : Prop where
  groups : ∀ g, t.group g = { s.group g with division :=
    if (s.group g).run = .running ∨ (s.group g).run = .halting then (s.group g).division + 1
    else (s.group g).division }
  syncs : ∀ g, t.syncInput g = { s.syncInput g with sample := (s.syncInput g).pinHigh }
  frame : t = { s with
    groups := t.groups, syncs := t.syncs, refclkGap := 0, choices := t.choices, pending := t.pending }
  once : t.pending.Nodup
  only : ∀ c ∈ t.pending, ∃ g, edgeRow s g c ∨ tickRow s g c
  edges : ∀ g c, edgeRow s g c → c ∈ t.pending
  ticks : ∀ g c, tickRow s g c → c ∈ t.pending ∨ resyncRow s g
  cut : ∀ g c before after, tickRow s g c → resyncRow s g →
    t.pending = before ++ .syncEdge g (s.syncInput g).pinHigh :: after → c ∉ after

/-- The rows that follow once a port in REQUEST has stored a byte (R147, R148, R149). -/
def RequestRows (p : Port) (bytes : List Byte) (rows : List Instr) : Prop :=
  match classifyRequest p bytes with
  | .good c => rows = [c]
  | .bad _ => rows = [.badRequest p bytes]
  | .malformed => ∃ cmd len rest, bytes = cmd :: len :: rest ∧ rows = [.malformed p cmd len]
  | .notWhole => rows = []

/-- The rows that follow, in a port that is not in REQUEST, once `sampled` bits of a transaction have been clocked: the
completion of a READ EVENT response at its last bit (R130, R131, R150), and otherwise none, since what the host sends in
RESPONSE and DISCARD is ignored and a DESELECTED port takes nothing (R147). -/
def OtherRows (p : Port) (q : PortState) (sampled : Nat) (rows : List Instr) : Prop :=
  match q.txn with
  | .request => True
  | .response resp .readHead | .response resp (.readEmpty _) =>
    rows = if sampled = 8 * (q.line.request.length + resp.bytes.length) then [.readEventCompleted p] else []
  | .response _ .none | .response _ .completed | .response _ .portReset | .response _ .deviceReset => rows = []
  | .deselected | .discard _ => rows = []

/-- The level of SCKx changes, with a level on SIx (R146): a rising edge with SSx low samples a bit, and the eighth makes a
byte, its first bit the most significant, which a port in REQUEST stores and another ignores (R147); a falling edge places a
bit. Between edges a line holds at most seven bits of an incomplete byte. -/
structure SerialClock (p : Port) (high data : Bool) (s t : State) : Prop where
  others : ∀ q, q ≠ p → t.port q = s.port q
  own : t.port p = { s.port p with line := (t.port p).line }
  frame : t = { s with ports := t.ports, choices := t.choices, pending := t.pending }
  released : (s.port p).selectLow = false →
    (t.port p).line = { (s.port p).line with clockHigh := high } ∧ t.pending = []
  falling : (s.port p).selectLow = true → high = false →
    (t.port p).line = { (s.port p).line with clockHigh := false, placed := (s.port p).line.placed + 1 } ∧ t.pending = []
  ignored : (s.port p).selectLow = true → high = true →
    OtherRows p (s.port p) ((s.port p).line.sampled + 1) t.pending
  part : (s.port p).selectLow = true → high = true → (s.port p).line.bits.length < 7 →
    (t.port p).line = { (s.port p).line with
      clockHigh := true, bits := (s.port p).line.bits ++ [data], sampled := (s.port p).line.sampled + 1 } ∧
    ((s.port p).txn = .request → t.pending = [])
  eighth : (s.port p).selectLow = true → high = true → ∀ b : Byte, bitsOf b = (s.port p).line.bits ++ [data] →
    (t.port p).line = { (s.port p).line with
      clockHigh := true, bits := [], sampled := (s.port p).line.sampled + 1
      request := if (s.port p).txn = .request then (s.port p).line.request ++ [b] else (s.port p).line.request } ∧
    ((s.port p).txn = .request → RequestRows p ((s.port p).line.request ++ [b]) t.pending)

/-- What stands on SOx (R146, R148, R150, R162): nothing while SSx is high or outside OPERATING; with SSx low the bits of the
response, in order after those placed with the request and each byte with its most significant bit first, and otherwise
zeros. A response is RESULT, RLEN, RLEN data bytes and the RCHK that makes their sum 0. -/
structure SerialShows (s : State) : Prop where
  form : ∀ p r after, (s.port p).txn = .response r after → ∃ rchk,
    r.bytes = byteOf (resultTable.idxOf r.result) :: byteOf r.data.length :: (r.data ++ [rchk]) ∧
      (r.bytes.map BitVec.toNat).sum % 256 = 0
  idle : ∀ p, s.condition ≠ .operating ∨ (s.port p).selectLow = false → s.soLine p = .highZ
  request : ∀ p, s.condition = .operating → (s.port p).selectLow = true →
    (s.port p).line.placed ≤ 8 * (s.port p).line.request.length ∨ (∀ r after, (s.port p).txn ≠ .response r after) →
    s.soLine p = .low
  response : ∀ p r after k i, s.condition = .operating → (s.port p).selectLow = true → (s.port p).txn = .response r after →
    i < 8 → (s.port p).line.placed = 8 * ((s.port p).line.request.length + k) + i + 1 →
    s.soLine p = if (r.bytes.getD k 0).getLsbD (7 - i) = true then .high else .low

/-- The items a port loses, in ascending order (R104). -/
def itemsOf (s : State) (p : Port) : List Item := allItems.filter fun i => decide (s.holder i = some p)

/-- A leg that its holder `p` loses with its fallback applied (R99). -/
def lostLeg (s : State) (p : Port) (v : LegState) : LegState :=
  if v.holder = some p then
    { (if v.fallback = .off then offLeg (decide ((s.group v.group).run = .tripped)) v else v) with holder := none }
  else v

/-- A group that its holder `p` loses with its fallback applied: with HALT a notice is on its way to the timer (R99). -/
def lostGroup (p : Port) (v : GroupState) : GroupState :=
  if v.holder = some p then
    { v with holder := none, haltNotices := if v.fallback = .halt then v.haltNotices + 1 else v.haltNotices }
  else v

/-- Records for the supervisor where it is a port other than `p` (R105, R136). -/
def toSupervisor (s : State) (p : Port) (es : List Event) (q : Port) : List Event :=
  if s.supervisor = some q ∧ q ≠ p then es else []

/-- The pattern record that the twelve bytes of a STAGE LEG spell (R159, section 9.7). -/
def Spells (raw : RawPattern) (r : PatternRecord) : Prop :=
  (patternBytes r).take 2 = [raw.mode, raw.polarity] ∧ r.gap = raw.gap.toNat ∧
    r.offsetA = raw.offsetA.toNat ∧ r.widthA = raw.widthA.toNat ∧ r.offsetB = raw.offsetB.toNat ∧
    r.widthB = raw.widthB.toNat

/-- The bytes of a STAGE LEG fail a format check (R17, R159). -/
def badPattern (raw : RawPattern) : Bool :=
  decide (3 < raw.mode.toNat) || decide (3 < raw.polarity.toNat) || decide (1023 < raw.gap.toNat) ||
    (decide (raw.mode ≠ 3) && (decide (raw.offsetB ≠ 0) || decide (raw.widthB ≠ 0)))

/-- The edit list with an edit staged: in place of the edit of its item, or at the end (R53, R55). -/
def stagedList (e : Edit) (c : ChangeSet) : List Edit :=
  if c.hasEdit e.item then c.edits.map fun x => if x.item = e.item then e else x else c.edits ++ [e]

/-- The n-th id that OPEN SET looks at (R48). -/
def nthId (start : Nat) : Nat → Nat
  | 0 => start
  | n + 1 => idAfter (nthId start n)

end Sys2Proof.Machine
end

