-- ==== Sys2Proof/Certificates/Slice0/Obligations.lean ====
section
/-! DEFINITION. The statements for the provers, from the numbered rules of the manual, chapter by chapter. -/

open Sys2Proof Sys2Proof.Machine

/-! ### The step and the laws that every step keeps -/

/-- A step with a command waiting is `exec` of the command at the front, on the state with the rest of the queue. -/
def Obligations.StepRunsTheFrontCommand : Prop :=
  ∀ (c : Instr) (rest : List Instr) (s : State), s.pending = c :: rest → step s = exec c { s with pending := rest }

/-- Every law below holds right after reset. -/
def Obligations.ResetMeetsEveryLaw : Prop :=
  InterlockLaw State.reset ∧ QueueLaw State.reset ∧ TableLaw State.reset ∧ LeaseLaw State.reset ∧
    PendingItemLaw State.reset ∧ DistanceLaw State.reset ∧ TrippedLaw State.reset ∧ CauseLaw State.reset ∧
    ClockLaw State.reset ∧ TimerLaw State.reset ∧ PatternLaw State.reset

/-- R5's law and R111's: every step keeps the two outputs of a leg from being active together. -/
def Obligations.InterlockKept : Prop := ∀ s t : State, InterlockLaw s → step s = .next t → InterlockLaw t

/-- R126's law: a queue holds at most 12 records. -/
def Obligations.QueueLengthKept : Prop := ∀ s t : State, QueueLaw s → step s = .next t → QueueLaw t

/-- The laws of R46 to R49 on the set table, the edit lists, the ids and the pool. -/
def Obligations.SetTableKept : Prop :=
  ∀ s t : State, QueueLaw s → TableLaw s → step s = .next t → TableLaw t

/-- R57's law: every item that carries an edit is leased to the owner of the set, in the set's group. -/
def Obligations.EditsStayLeased : Prop :=
  ∀ s t : State, TableLaw s → LeaseLaw s → step s = .next t → LeaseLaw t

/-- R72's law, no item carries an edit in more than one PENDING set, and R77's, a PENDING set's target lies 1 to 65535
frames ahead. -/
def Obligations.PendingSetsStaySound : Prop :=
  ∀ s t : State, step s = .next t → (PendingItemLaw s → PendingItemLaw t) ∧ (DistanceLaw s → DistanceLaw t)

/-- R88's law that a TRIPPED group has no PENDING set, and R111's that a cause set is empty exactly outside TRIPPED. -/
def Obligations.TrippedGroupsStayBare : Prop :=
  ∀ s t : State, TrippedLaw s → CauseLaw s → step s = .next t → TrippedLaw t ∧ CauseLaw t

/-- No group is ARMED, RUNNING or HALTING while the monitor reads LOST. -/
def Obligations.NoGroupRunsWithoutClock : Prop := ∀ s t : State, ClockLaw s → step s = .next t → ClockLaw t

/-- A liveness timer is RUNNING exactly while its port holds an item and has a timeout. -/
def Obligations.TimersFollowLeases : Prop := ∀ s t : State, TimerLaw s → step s = .next t → TimerLaw t

/-- Every record in force passes the checks against its group's period. -/
def Obligations.RecordsInForceStayChecked : Prop :=
  ∀ s t : State, LeaseLaw s → PatternLaw s → step s = .next t → PatternLaw t

/-! ### The ports (chapter 9) -/

/-- The request written for a command of a port is received as exactly that command, whatever its operands. -/
def Obligations.RequestsAreReadAsSent : Prop :=
  ∀ (c : Instr) (p : Port), commandPort c = some p →
    ∃ bytes, encodeRequest c = some bytes ∧ classifyRequest p bytes = .good c

/-- Every command that a port can take is answered, and a refused one has no effect but the restart of the port's timer
(R102, R149). Where no port is in REQUEST in OPERATING no request is read, and a command row changes nothing: the model's
reading, log entry 3. -/
def Obligations.CommandsAreAnsweredOrChangeNothing : Prop :=
  ∀ (c : Instr) (p : Port) (s : State), commandPort c = some p →
    (CanTake s p → ∃ t r data after, Answers c p s t r data after ∧ (r ≠ .ok → TransactionOnly p s t)) ∧
    (¬CanTake s p → exec c s = .next s)

/-- SELECT_ASSERTED, MALFORMED and BAD_REQUEST (R147, R148, R149): REQUEST with no bytes; DISCARD on a LEN greater than 16; a
wrong check byte has no effect of any kind, and UNKNOWN and LENGTH restart the timer. The request is CMD, LEN, LEN argument
bytes and CHK, and the first of R149's conditions that its bytes meet gives the result. That MALFORMED brings its CMD and LEN
with it, so that they stand stored with SCKx high and sixteen bits counted whatever the line held, is the model's choice of
log entry 11. -/
def Obligations.RequestsThatReachNoBlock : Prop :=
  ∀ (p : Port) (cmd len : Byte) (rest : List Byte) (s : State), (CanTake s p →
    (len.toNat ≤ 16 → rest.length = len.toNat + 1 →
      let bytes := cmd :: len :: rest
      let sum := (bytes.map BitVec.toNat).sum % 256
      (sum ≠ 0 →
        ∃ t, Answers (.badRequest p bytes) p s t .check [] .none ∧ PortsOnly s t ∧
          Served p noRecords (s.port p).timer s t) ∧
      (sum = 0 → commandLength cmd = none → Refuses (.badRequest p bytes) p s .unknown []) ∧
      (sum = 0 → ∀ n, commandLength cmd = some n → n ≠ len.toNat →
        Refuses (.badRequest p bytes) p s .length [])) ∧
    (16 < len.toNat →
      ∃ t, exec (.malformed p cmd len) s = .next t ∧ PortsOnly s t ∧ (∀ q, q ≠ p → t.port q = s.port q) ∧
        t.port p = { s.port p with txn := .discard true, line := .holding [cmd, len] })) ∧
    (s.condition = .operating → (s.port p).txn = .deselected →
      ∃ t, exec (.selectAsserted p) s = .next t ∧ PortsOnly s t ∧ (∀ q, q ≠ p → t.port q = s.port q) ∧
        t.port p = { s.port p with
          selectLow := true, txn := .request
          line := { (s.port p).line with
            request := [], bits := [], sampled := 0, placed := if (s.port p).line.clockHigh = true then 0 else 1 } })

/-- SELECT_RELEASED (R147, R151, R152, R164): what is recorded as the previous transaction, by the state it ended in; a
reset that waits takes effect, and a READ EVENT response clocked out whole is completed first (log entry 9); the bits of a
byte left incomplete are discarded (R146); outside OPERATING nothing else changes but the pin. -/
def Obligations.ReleaseRecordsTheTransaction : Prop :=
  ∀ (p : Port) (whole : Bool) (s : State),
    (∀ (r : Result) (how : PrevResponse), s.condition = .operating →
      ((s.port p).txn = .request ∧ r = .truncated ∧ how = .cut ∨
        (s.port p).txn = .discard true ∧ r = .malformed ∧ how = .cut ∨
        ((s.port p).txn = .discard false ∨ (s.port p).txn = .deselected) ∧ r = (s.port p).prevResult ∧
          how = (s.port p).prevResponse ∨
        (∃ resp after, (s.port p).txn = .response resp after ∧ r = resp.result ∧
          (after = .none ∧ how = (if whole = true then .complete else .cut) ∨ after = .completed ∧ how = .complete ∨
            (after = .readHead ∨ ∃ d, after = .readEmpty d) ∧ whole = false ∧ how = .cut))) →
      ∃ t, exec (.selectReleased p whole) s = .next t ∧ PortsOnly s t ∧ (∀ q, q ≠ p → t.port q = s.port q) ∧
        t.port p = { s.port p with
          selectLow := false, line := { (s.port p).line with bits := [] }, txn := .deselected, prevResult := r,
          prevResponse := how }) ∧
    exec (.selectReleased p whole) s = exec (.portResetEffect p whole) s ∧
    exec (.selectReleased p whole) s = exec (.deviceResetEffect p whole) s ∧
    (∀ resp, s.condition = .operating →
      ((s.port p).txn = .response resp .readHead ∨ (∃ d, (s.port p).txn = .response resp (.readEmpty d)) →
        ∃ u, exec (.readEventCompleted p) s = .next u ∧
          exec (.selectReleased p true) s = exec (.selectReleased p true) u)) ∧
    (s.condition ≠ .operating → ∃ t, exec (.selectReleased p whole) s = .next t ∧ PortsOnly s t ∧
      (∀ q, q ≠ p → t.port q = s.port q) ∧
      t.port p = { s.port p with selectLow := false, line := { (s.port p).line with bits := [] } })

/-- PORT_RESET and DEVICE_RESET (R155, R157): the port itself and the device wait for the release, and another port is reset
at once by the supervisor. -/
def Obligations.ResetCommandsAreTaken : Prop :=
  ∀ (p q : Port) (named : Byte) (s : State), CanTake s p → named.toNat = portNum q →
    (s.supervisor = some p →
      ∃ t, Answers (.deviceReset p) p s t .ok [] .deviceReset ∧ TransactionOnly p s t) ∧
    (s.supervisor ≠ some p → Refuses (.deviceReset p) p s .notSupervisor []) ∧
    (∀ bad : Byte, 2 < bad.toNat → Refuses (.portReset p bad) p s .badArg []) ∧
    (q = p → ∃ t, Answers (.portReset p named) p s t .ok [named] .portReset ∧ TransactionOnly p s t) ∧
    (q ≠ p → s.supervisor ≠ some p → Refuses (.portReset p named) p s .notSupervisor []) ∧
    (q ≠ p → s.supervisor = some p → ∃ t, Answers (.portReset p named) p s t .ok [named] .none ∧
      t.sets = (s.sets.filter fun c => decide (c.owner ≠ q)) ∧
      (∀ l, t.leg l = lostLeg s q (s.leg l)) ∧ (∀ g, t.group g = lostGroup q (s.group g)) ∧
      t = { s with ports := t.ports, legs := t.legs, groups := t.groups, sets := t.sets } ∧
      (∀ k, k ≠ p → k ≠ q → t.port k = s.port k) ∧
      t.port p = { (s.port p).afterRecords [.portReset q true] with
        txn := (t.port p).txn, line := (t.port p).line, timer := (s.port p).restarted } ∧
      t.port q = { s.port q with
        queue := [], overrun := false, notify := 0xFF, timer := none, prevResult := .ok, prevResponse := .complete,
        txn := (s.port q).txn.voidRead })

/-- PORT_RESET_EFFECT (R66, R107, R136, R152, R155): a self-issued PORT RESET takes effect at the release. -/
def Obligations.SelfResetTakesEffect : Prop :=
  ∀ (p : Port) (whole : Bool) (resp : Response) (s : State), s.condition = .operating →
    (s.port p).txn = .response resp .portReset →
    ∃ t, exec (.portResetEffect p whole) s = .next t ∧
      t.sets = (s.sets.filter fun c => decide (c.owner ≠ p)) ∧
      (∀ l, t.leg l = lostLeg s p (s.leg l)) ∧ (∀ g, t.group g = lostGroup p (s.group g)) ∧
      t = { s with ports := t.ports, legs := t.legs, groups := t.groups, sets := t.sets } ∧
      (∀ q, q ≠ p → t.port q = (s.port q).afterRecords (toSupervisor s p [.portReset p false] q)) ∧
      t.port p = { s.port p with
        selectLow := false, line := { (s.port p).line with bits := [] }, txn := .deselected, queue := []
        overrun := false, notify := 0xFF, timer := none, prevResult := resp.result
        prevResponse := if whole = true then .complete else .cut }

/-- DEVICE_RESET_EFFECT (R22, R43, R67, R91, R110, R125, R137, R157, R158): every block takes its values at the release; what
stands on the serial lines is kept, the model's choice of log entry 17. The filter of a trip input that is low at the release
reads QUIET there and not QUALIFYING, the model's choice of log entry 19. A hardware reset that is taken first leaves the
release nothing but SSx going high, and both orders end in RESET alike (R167). -/
def Obligations.DeviceResetTakesEffect : Prop :=
  ∀ (p : Port) (whole : Bool) (resp : Response) (s : State), s.condition = .operating →
    (s.port p).txn = .response resp .deviceReset →
    ∃ t, exec (.deviceResetEffect p whole) s = .next t ∧
      (∀ g, t.group g = State.reset.group g) ∧
      (∀ l, t.leg l = { State.reset.leg l with
        outA := inactiveAtOnce (s.leg l).outA, outB := inactiveAtOnce (s.leg l).outB }) ∧
      (∀ i, t.input i = { State.reset.input i with pinLow := (s.input i).pinLow }) ∧
      t = { s with
        ports := t.ports, legs := t.legs, groups := t.groups, inputs := t.inputs, sets := [], nextId := 1,
        sealCount := 0 } ∧
      (∀ q, q ≠ p → t.port q = { State.reset.port q with
        selectLow := (s.port q).selectLow, line := (s.port q).line,
        txn := if (s.port q).txn = .deselected then .deselected else .discard false }) ∧
      t.port p = { State.reset.port p with
        selectLow := false, line := { (s.port p).line with bits := [] }, prevResult := resp.result,
        prevResponse := if whole = true then .complete else .cut } ∧
      ∀ c u v, c = Instr.resetnAsserted ∨ c = Instr.powerFail → exec c s = .next u →
        exec (.deviceResetEffect p whole) u = .next v → exec c t = .next v

/-! ### The event queues (chapter 7) -/

/-- READ_EVENT and READ_EVENT_COMPLETED (R61, R127, R130, R131, R132): the oldest record, in its eight bytes, with what
stands behind it, or QUEUE_EMPTY, and nothing is removed yet; on completion the head leaves and frees the DONE set it
reports, or the marker is cleared unless a record was discarded since. -/
def Obligations.ReadEventReturnsThenRemoves : Prop :=
  ∀ (p : Port) (resp : Response) (s : State), (CanTake s p →
    (∀ e rest, (s.port p).queue = e :: rest →
      ∃ t, Answers (.readEvent p) p s t .ok
          (recordBytes e ++ [byteOf rest.length, if (s.port p).overrun = true then 1 else 0]) .readHead ∧
        TransactionOnly p s t) ∧
    ((s.port p).queue = [] →
      ∃ t, Answers (.readEvent p) p s t .queueEmpty [if (s.port p).overrun = true then 1 else 0] (.readEmpty false) ∧
        TransactionOnly p s t)) ∧
    (s.condition = .operating →
      (∀ e rest, (s.port p).txn = .response resp .readHead → (s.port p).queue = e :: rest →
        ∃ t, exec (.readEventCompleted p) s = .next t ∧ (∀ q, q ≠ p → t.port q = s.port q) ∧
          t.port p = { s.port p with queue := rest, txn := .response resp .completed } ∧
          t.sets = (s.sets.filter fun c =>
            !(e.isSetRecord && decide (c.id = e.setId) && decide (c.owner = p) && c.isDone)) ∧
          t = { s with ports := t.ports, sets := t.sets }) ∧
      (∀ discarded, (s.port p).txn = .response resp (.readEmpty discarded) →
        ∃ t, exec (.readEventCompleted p) s = .next t ∧ PortsOnly s t ∧ (∀ q, q ≠ p → t.port q = s.port q) ∧
          t.port p = { s.port p with
            overrun := if discarded = true then (s.port p).overrun else false, txn := .response resp .completed }))

/-- SET_NOTIFY (R134) and the ATTN line that follows it (R135): the mask is replaced, and ATTN is active exactly while the
queue holds a record of an enabled kind. -/
def Obligations.NotifyMaskGovernsAttention : Prop :=
  ∀ (p : Port) (mask : Byte) (s : State), CanTake s p →
    ∃ t, Answers (.setNotify p mask) p s t .ok [(s.port p).notify, mask] .none ∧ PortsOnly s t ∧
      (∀ q, q ≠ p → t.port q = s.port q) ∧
      t.port p = { s.port p with
        notify := mask, timer := (s.port p).restarted, txn := (t.port p).txn, line := (t.port p).line } ∧
      t.attnLine p = if ∃ e ∈ (s.port p).queue, mask.getLsbD (e.kind - 1) = true then .low else .high

/-! ### The lease unit (chapter 5) -/

/-- CLAIM (R93): refused BAD_ARG or HELD with nothing granted, or every free item of the mask becomes the port's. -/
def Obligations.ClaimIsGrantedWhole : Prop :=
  ∀ (p : Port) (mask : Byte) (s : State), CanTake s p →
    (mask = 0 → Refuses (.claim p mask) p s .badArg []) ∧
    (∀ i q, inMask mask i = true → s.holder i = some q → q ≠ p →
      (∀ j, j.num < i.num → inMask mask j = true → s.holder j = none ∨ s.holder j = some p) →
      Refuses (.claim p mask) p s .held [byteOf i.num, byteOf (portNum q)]) ∧
    (mask ≠ 0 → (∀ i, inMask mask i = true → s.holder i = none ∨ s.holder i = some p) →
      ∃ t, Answers (.claim p mask) p s t .ok
          [maskOf fun i => inMask mask i && decide (s.holder i = none),
            maskOf fun i => inMask mask i || decide (s.holder i = some p)] .none ∧
        (∀ i, t.holder i = if inMask mask i = true then some p else s.holder i) ∧ HoldersOnly s t ∧
        Served p noRecords
          (if (s.port p).timeout = 0 then (s.port p).restarted else some (s.port p).timeout) s t)

/-- RELEASE (R95): refused NOT_HOLDER or IN_SET with nothing released, or every item of the mask becomes free, with no
fallback applied. -/
def Obligations.ReleaseIsTakenWhole : Prop :=
  ∀ (p : Port) (mask : Byte) (s : State), CanTake s p →
    (mask = 0 → Refuses (.release p mask) p s .badArg []) ∧
    (∀ i, inMask mask i = true → s.holder i ≠ some p →
      (∀ j, j.num < i.num → inMask mask j = true → s.holder j = some p) →
      Refuses (.release p mask) p s .notHolder [byteOf i.num, holderByte (s.holder i)]) ∧
    ((∀ i, inMask mask i = true → s.holder i = some p) →
      (∀ i, inMask mask i = true → (∃ c ∈ s.sets, c.owner = p ∧ c.hasEdit i = true) →
        (∀ j, j.num < i.num → inMask mask j = true → ∀ c ∈ s.sets, c.owner = p → c.hasEdit j = false) →
        ∃ c ∈ s.sets, c.owner = p ∧ c.hasEdit i = true ∧
          Refuses (.release p mask) p s .inSet [byteOf i.num, byteOf c.id]) ∧
      (mask ≠ 0 → (∀ i, inMask mask i = true → ∀ c ∈ s.sets, c.owner = p → c.hasEdit i = false) →
        ∃ t, Answers (.release p mask) p s t .ok
            [maskOf fun i => !inMask mask i && decide (s.holder i = some p)] .none ∧
          (∀ i, t.holder i = if inMask mask i = true then none else s.holder i) ∧ HoldersOnly s t ∧
          Served p noRecords (if t.holdsAny p = true then (s.port p).restarted else none) s t))

/-- SEIZE (R64, R96): the supervisor becomes the holder of the items, the former holders' OPEN sets are trimmed and their
PENDING sets that touch a taken item cancelled, and no fallback is applied. -/
def Obligations.SeizeTakesTheItems : Prop :=
  ∀ (p : Port) (mask : Byte) (s : State), CanTake s p →
    (s.supervisor ≠ some p → Refuses (.seize p mask) p s .notSupervisor []) ∧
    (s.supervisor = some p → mask = 0 → Refuses (.seize p mask) p s .badArg []) ∧
    (s.supervisor = some p → mask ≠ 0 →
      let taken (q : Port) (i : Item) : Bool := inMask mask i && decide (q ≠ p) && decide (s.holder i = some q)
      let hit (c : ChangeSet) : Bool := c.edits.any fun e => taken c.owner e.item
      ∃ t, Answers (.seize p mask) p s t .ok
          ((allItems.map fun i => holderByte (s.holder i)) ++
            [byteOf (s.sets.countP fun c => c.isPending && hit c)]) .none ∧
        (∀ i, t.holder i = if inMask mask i = true then some p else s.holder i) ∧
        t.sets = (s.sets.map fun c =>
          match c.body with
          | .opened es => { c with body := .opened (es.filter fun e => !taken c.owner e.item) }
          | .pending _ _ _ => if hit c then cancelledAs .seized c else c
          | .done _ _ => c) ∧
        t = { s with
          ports := t.ports
          legs := s.legs.map fun l v => { v with holder := t.holder (.leg l) }
          groups := s.groups.map fun g v => { v with holder := t.holder (.group g) }
          sets := t.sets } ∧
        t.port p = { s.port p with
          txn := (t.port p).txn, line := (t.port p).line,
          timer := if (s.port p).timeout = 0 then (s.port p).restarted else some (s.port p).timeout } ∧
        ∀ q, q ≠ p → t.port q =
          { (s.port q).afterRecords
              (cancelRecords s hit .seized q ++ (allItems.filter (taken q)).map fun i => .leaseLost i .seized) with
            timer := if t.holdsAny q = true then (s.port q).timer else none })

/-- SET_FALLBACK (R98). -/
def Obligations.SetFallbackReplacesTheField : Prop :=
  ∀ (p : Port) (item value : Byte) (s : State), CanTake s p →
    (7 < item.toNat ∨ 1 < value.toNat → Refuses (.setFallback p item value) p s .badArg []) ∧
    (∀ i : Item, item.toNat = i.num → value.toNat ≤ 1 →
      (s.holder i ≠ some p → Refuses (.setFallback p item value) p s .notHolder []) ∧
      (s.holder i = some p →
        ∃ t, Answers (.setFallback p item value) p s t .ok [item, value] .none ∧
          (∀ l, t.leg l = if i = .leg l then
            { s.leg l with fallback := if value = 0 then .hold else .off } else s.leg l) ∧
          (∀ g, t.group g = if i = .group g then
            { s.group g with fallback := if value = 0 then .run else .halt } else s.group g) ∧
          t = { s with ports := t.ports, legs := t.legs, groups := t.groups } ∧
          Served p noRecords (s.port p).restarted s t))

/-- SET_LIVENESS (R103). -/
def Obligations.SetLivenessSetsTheTimer : Prop :=
  ∀ (p : Port) (named timeout : Byte) (s : State), CanTake s p →
    (s.supervisor ≠ some p → Refuses (.setLiveness p named timeout) p s .notSupervisor []) ∧
    (s.supervisor = some p → 2 < named.toNat → Refuses (.setLiveness p named timeout) p s .badArg []) ∧
    (s.supervisor = some p → ∀ q, named.toNat = portNum q →
      let timer := if s.holdsAny q = true ∧ timeout ≠ 0 then some timeout.toNat else none
      ∃ t, Answers (.setLiveness p named timeout) p s t .ok
          [named, timeout, if s.holdsAny q = true ∧ timeout ≠ 0 then 1 else 0] .none ∧ PortsOnly s t ∧
        (∀ k, k ≠ p → t.port k =
          if k = q then { s.port k with timeout := timeout.toNat, timer := timer } else s.port k) ∧
        t.port p =
          { s.port p with
            txn := (t.port p).txn, line := (t.port p).line,
            timeout := if p = q then timeout.toNat else (s.port p).timeout,
            timer := if p = q then timer else (s.port p).restarted })

/-- LIVENESS_EXPIRY (R63, R99, R104, R105): the items are free, the OPEN set is gone, the PENDING sets are cancelled, the
fallbacks are applied, and the records are raised in their order. A timer that does not stand at 0, restarted or stopped
first, does not expire. That a HALT notice is counted in its group until the group timer takes it is log entry 10. -/
def Obligations.ExpiryFreesEverything : Prop :=
  ∀ (p : Port) (s : State), s.condition = .operating →
    ((s.port p).timer ≠ some 0 → exec (.livenessExpiry p) s = .next s) ∧
    ((s.port p).timer = some 0 → ∃ t, exec (.livenessExpiry p) s = .next t ∧
      (∀ l, t.leg l = lostLeg s p (s.leg l)) ∧ (∀ g, t.group g = lostGroup p (s.group g)) ∧
      t.sets = ((s.sets.filter fun c => !(decide (c.owner = p) && c.isOpen)).map fun c =>
        if c.owner = p then cancelledAs .leaseLost c else c) ∧
      t = { s with ports := t.ports, legs := t.legs, groups := t.groups, sets := t.sets } ∧
      t.port p = { (s.port p).afterRecords
        (cancelRecords s (fun c => decide (c.owner = p)) .leaseLost p ++
          (itemsOf s p).map fun i => .leaseLost i .timeout) with timer := none } ∧
      ∀ q, q ≠ p → t.port q =
        (s.port q).afterRecords (toSupervisor s p ((itemsOf s p).map fun i => .leaseLost i .timeout) q))

/-! ### The set unit (chapter 3) -/

/-- OPEN_SET (R48, R51): an empty set with the first id from the next id on that is not in use. -/
def Obligations.OpenSetOpensAnEmptySet : Prop :=
  ∀ (p : Port) (group : Byte) (s : State), CanTake s p → QueueLaw s → TableLaw s →
    (1 < group.toNat → Refuses (.openSet p group) p s .badArg []) ∧
    (∀ g, group.toNat = groupNum g →
      (∀ c ∈ s.sets, c.owner = p → c.isOpen = true → Refuses (.openSet p group) p s .setOpen [byteOf c.id]) ∧
      ((∀ c ∈ s.sets, c.owner = p → c.isOpen = false) →
        (s.sets.length = 12 → Refuses (.openSet p group) p s .tableFull []) ∧
        (s.sets.length < 12 →
          ∃ t k, k ≤ 48 ∧ (∀ j, j < k → s.idInUse (nthId s.nextId j) = true) ∧
            s.idInUse (nthId s.nextId k) = false ∧
            Answers (.openSet p group) p s t .ok [byteOf (nthId s.nextId k), group] .none ∧
            t = { s with
              ports := t.ports
              sets := s.sets ++ [{ id := nthId s.nextId k, owner := p, group := g, body := .opened [] }]
              nextId := nthId s.nextId (k + 1) } ∧
            Served p noRecords (s.port p).restarted s t)))

/-- STAGE_LEG (R17, R53, R55): the refusals in their order, and the edit placed in the OPEN set. Where the timer stood at 0, it
is restarted (R102) or stays at 0 for the expiry to discard the edit with its set (R58), by the free value of log entry
20. -/
def Obligations.StageLegPlacesTheEdit : Prop :=
  ∀ (p : Port) (leg : Byte) (raw : RawPattern) (s : State), CanTake s p → TableLaw s →
    (5 < leg.toNat → Refuses (.stageLeg p leg raw) p s .badArg []) ∧
    (∀ l, leg.toNat = legNum l →
      ((∀ c ∈ s.sets, c.owner = p → c.isOpen = false) → Refuses (.stageLeg p leg raw) p s .noOpenSet []) ∧
      (∀ c ∈ s.sets, c.owner = p → c.isOpen = true →
        (s.holder (.leg l) ≠ some p → Refuses (.stageLeg p leg raw) p s .notHolder []) ∧
        (s.holder (.leg l) = some p →
          ((s.leg l).group ≠ c.group → Refuses (.stageLeg p leg raw) p s .wrongGroup []) ∧
          ((s.leg l).group = c.group →
            (badPattern raw = true → Refuses (.stageLeg p leg raw) p s .badArg []) ∧
            (badPattern raw = false → c.hasEdit (.leg l) = false → s.poolUsed = 64 →
              Refuses (.stageLeg p leg raw) p s .poolFull []) ∧
            (badPattern raw = false → c.hasEdit (.leg l) = true ∨ s.poolUsed < 64 →
              ∃ t r, Spells raw r ∧
                Answers (.stageLeg p leg raw) p s t .ok
                  [byteOf c.id, byteOf (stagedList (.leg l r) c).length, byteOf (64 - t.poolUsed)] .none ∧
                t = { s with
                  ports := t.ports
                  sets := s.sets.map fun k =>
                    if k.id = c.id then { c with body := .opened (stagedList (.leg l r) c) } else k } ∧
                Served p noRecords (setWorkTimer p s) s t)))))

/-- STAGE_GROUP (R54, R55): the refusals in their order, and the edit placed in the OPEN set. Where the timer stood at 0, it is
restarted (R102) or stays at 0 for the expiry to discard the edit with its set (R58), by the free value of log entry 20. -/
def Obligations.StageGroupPlacesTheEdit : Prop :=
  ∀ (p : Port) (group : Byte) (raw : RawTiming) (s : State), CanTake s p → TableLaw s →
    (1 < group.toNat → Refuses (.stageGroup p group raw) p s .badArg []) ∧
    (∀ g, group.toNat = groupNum g →
      ((∀ c ∈ s.sets, c.owner = p → c.isOpen = false) → Refuses (.stageGroup p group raw) p s .noOpenSet []) ∧
      (∀ c ∈ s.sets, c.owner = p → c.isOpen = true →
        (s.holder (.group g) ≠ some p → Refuses (.stageGroup p group raw) p s .notHolder []) ∧
        (s.holder (.group g) = some p →
          (g ≠ c.group → Refuses (.stageGroup p group raw) p s .wrongGroup []) ∧
          (g = c.group →
            (raw.period.toNat < 4 ∨ 7 < raw.divider.toNat → Refuses (.stageGroup p group raw) p s .badArg []) ∧
            (4 ≤ raw.period.toNat → raw.divider.toNat ≤ 7 → c.hasEdit (.group g) = false → s.poolUsed = 64 →
              Refuses (.stageGroup p group raw) p s .poolFull []) ∧
            (4 ≤ raw.period.toNat → raw.divider.toNat ≤ 7 → c.hasEdit (.group g) = true ∨ s.poolUsed < 64 →
              let e : Edit := .group g
                { period := raw.period.toNat, divider := raw.divider.toNat, budget := raw.budget.toNat }
              ∃ t, Answers (.stageGroup p group raw) p s t .ok
                  [byteOf c.id, byteOf (stagedList e c).length, byteOf (64 - t.poolUsed)] .none ∧
                t = { s with
                  ports := t.ports
                  sets := s.sets.map fun k =>
                    if k.id = c.id then { c with body := .opened (stagedList e c) } else k } ∧
                Served p noRecords (setWorkTimer p s) s t)))))

/-- UNSTAGE (R56) and ABANDON (R52). -/
def Obligations.UnstageAndAbandonFreeEdits : Prop :=
  ∀ (p : Port) (item : Byte) (s : State), CanTake s p → TableLaw s →
    (7 < item.toNat → Refuses (.unstage p item) p s .badArg []) ∧
    ((∀ c ∈ s.sets, c.owner = p → c.isOpen = false) →
      (item.toNat ≤ 7 → Refuses (.unstage p item) p s .noOpenSet []) ∧ Refuses (.abandon p) p s .noOpenSet []) ∧
    (∀ c ∈ s.sets, c.owner = p → c.isOpen = true →
      (∃ t, Answers (.abandon p) p s t .ok [byteOf c.id, byteOf c.edits.length] .none ∧
        t = { s with ports := t.ports, sets := s.sets.filter fun k => decide (k ≠ c) } ∧
        Served p noRecords (s.port p).restarted s t) ∧
      (∀ i : Item, item.toNat = i.num →
        (c.hasEdit i = false → Refuses (.unstage p item) p s .badArg []) ∧
        (c.hasEdit i = true →
          let rest := c.edits.filter fun e => decide (e.item ≠ i)
          ∃ t, Answers (.unstage p item) p s t .ok [byteOf c.id, byteOf (c.edits.length - 1)] .none ∧
            t = { s with
              ports := t.ports
              sets := s.sets.map fun k => if k.id = c.id then { c with body := .opened rest } else k } ∧
            Served p noRecords (s.port p).restarted s t)))

/-- ACK_SET (R60) and WITHDRAW (R84): a DONE or PENDING set of the port leaves the table; a set in another state, or of
another port, stays. The failing item that ACK SET answers for a set that did not fail, 0xFF, is log entry 15. -/
def Obligations.AckAndWithdrawRemoveSets : Prop :=
  ∀ (p : Port) (setId : Byte) (s : State), CanTake s p → TableLaw s →
    ((∀ c ∈ s.sets, c.id = setId.toNat → c.owner ≠ p) →
      Refuses (.ackSet p setId) p s .noSet [] ∧ Refuses (.withdraw p setId) p s .noSet []) ∧
    (∀ c ∈ s.sets, c.id = setId.toNat → c.owner = p →
      (c.isDone = false → Refuses (.ackSet p setId) p s .setState [stateByte c]) ∧
      (c.isPending = false → Refuses (.withdraw p setId) p s .setState (statusLayout c)) ∧
      (c.isDone = true →
        ∃ t, Answers (.ackSet p setId) p s t .ok (outcomeBytes c) .none ∧
          t = { s with ports := t.ports, sets := s.sets.filter fun k => decide (k ≠ c) } ∧
          Served p noRecords (s.port p).restarted s t) ∧
      (c.isPending = true →
        ∃ t, Answers (.withdraw p setId) p s t .ok ([setId, byteOf (groupNum c.group)] ++ frameBytes c.target) .none ∧
          t = { s with ports := t.ports, sets := s.sets.filter fun k => decide (k ≠ c) } ∧
          Served p noRecords (s.port p).restarted s t))

/-! ### The commit unit (chapter 4) -/

/-- R73's table: the target of each form against FN, and LATE and FAR. -/
def Obligations.TargetsResolve : Prop :=
  ∀ (fn : Frame),
    resolveTarget fn .next = .ok (fn + 1) ∧
    (∀ k, 1 ≤ k → k ≤ 65535 → resolveTarget fn (.after k) = .ok (fn + BitVec.ofNat 32 k)) ∧
    (∀ f : Frame,
      (1 ≤ (f - fn).toNat ∧ (f - fn).toNat ≤ 65535 → resolveTarget fn (.at f) = .ok f) ∧
      (65536 ≤ (f - fn).toNat ∧ (f - fn).toNat ≤ 2 ^ 31 - 1 → resolveTarget fn (.at f) = .error .far) ∧
      ((f - fn).toNat = 0 ∨ 2 ^ 31 ≤ (f - fn).toNat → resolveTarget fn (.at f) = .error .late))

/-- SEAL accepted (R70, R71, R75): the seal count advances, and the set is PENDING with its target, the last sealed.
Where the timer stood at 0, it is restarted (R102) or stays at 0 for the expiry to cancel the set (R65), by the free value of
log entry 20. -/
def Obligations.SealMakesTheSetPending : Prop :=
  ∀ (p : Port) (form : Byte) (value : Frame) (f : SealForm) (target : Frame) (c : ChangeSet) (s : State),
    CanTake s p → TableLaw s → c ∈ s.sets → c.owner = p → c.isOpen = true → sealArg form value = some f →
    c.edits ≠ [] → (s.group c.group).run ≠ .tripped → s.pendingCount p + s.doneCount p < 4 →
    (∀ k ∈ s.sets, k.isPending = true → ∀ e ∈ c.edits, k.hasEdit e.item = false) →
    resolveTarget (s.group c.group).fn f = .ok target → s.validate c.group c.edits = none →
    ∃ t, Answers (.seal p form value) p s t .ok
        ([byteOf c.id, byteOf (groupNum c.group)] ++ frameBytes target ++ frameBytes (s.group c.group).fn) .none ∧
      t = { s with
        ports := t.ports
        sealCount := s.sealCount + 1
        sets := (s.sets.filter fun k => decide (k ≠ c)) ++
          [{ c with body := .pending c.edits target (s.sealCount + 1) }] } ∧
      Served p noRecords (setWorkTimer p s) s t

/-- SEAL refused: the first refusal of R71's table that applies, with its data; and the validation, of a seal as of an
application: the lowest leg of the group that fails, with its first failing check (R16, R74, R79). -/
def Obligations.SealRefusesInOrder : Prop :=
  ∀ (p : Port) (form : Byte) (value : Frame) (s : State), CanTake s p → TableLaw s →
    (2 < form.toNat ∨ form.toNat = 1 ∧ (value.toNat = 0 ∨ 65535 < value.toNat) →
      Refuses (.seal p form value) p s .badArg []) ∧
    (∀ f, sealArg form value = some f →
      ((∀ c ∈ s.sets, c.owner = p → c.isOpen = false) → Refuses (.seal p form value) p s .noOpenSet []) ∧
      (∀ c ∈ s.sets, c.owner = p → c.isOpen = true →
        let run := (s.group c.group).run
        let fn := (s.group c.group).fn
        (c.edits = [] → Refuses (.seal p form value) p s .emptySet [byteOf c.id]) ∧
        (c.edits ≠ [] → run = .tripped → Refuses (.seal p form value) p s .groupState [byteOf c.id, 4]) ∧
        (c.edits ≠ [] → run ≠ .tripped → s.pendingCount p + s.doneCount p = 4 →
          Refuses (.seal p form value) p s .portSetLimit
            [byteOf c.id, byteOf (s.pendingCount p), byteOf (s.doneCount p)]) ∧
        (run ≠ .tripped → s.pendingCount p + s.doneCount p < 4 →
          (∀ before e after, c.edits = before ++ e :: after →
            (∀ x ∈ before, s.pendingSetOf x.item = none) → ∀ k, s.pendingSetOf e.item = some k →
            Refuses (.seal p form value) p s .itemPending [byteOf c.id, byteOf e.item.num, byteOf k.id]) ∧
          (c.edits ≠ [] → (∀ e ∈ c.edits, s.pendingSetOf e.item = none) →
            (∀ r, resolveTarget fn f = .error r →
              Refuses (.seal p form value) p s r (byteOf c.id :: frameBytes fn)) ∧
            (∀ target why l, resolveTarget fn f = .ok target → s.validate c.group c.edits = some (why, l) →
              Refuses (.seal p form value) p s
                (match why with | .range => .range | .gap => .gap | .overlap => .overlap)
                ([byteOf c.id, byteOf (legNum l)] ++ numberBytes (s.periodFor c.group c.edits))))))) ∧
    (∀ g es, (es.map Edit.item).Nodup →
      (s.validate g es = none ↔ ∀ l why, ¬FailsWith s g es l why) ∧
      ∀ why l, s.validate g es = some (why, l) ↔
        FailsWith s g es l why ∧ ∀ k other, legNum k < legNum l → ¬FailsWith s g es k other)

/-! ### The leg generators (chapter 1) -/

/-- A window covers the ticks O, O+1, …, O+W−1, each taken modulo P (R1), and the demands of the two outputs follow from the
mode and the windows by R3's table. -/
def Obligations.WindowsGiveTheDemands : Prop :=
  ∀ (r : PatternRecord) (period n : Nat), n < period →
    let inside (o w : Nat) : Prop := ∃ k, k < w ∧ n = (o + k) % period
    (∀ o w, o < period → (covers period o w n = true ↔ inside o w)) ∧
    (r.mode = .off → demandA r period n = false ∧ demandB r period n = false) ∧
    (r.mode ≠ .off → r.offsetA < period → (demandA r period n = true ↔ inside r.offsetA r.widthA)) ∧
    (r.mode = .single → demandB r period n = false) ∧
    (r.mode = .complementary → r.offsetA < period →
      (demandB r period n = true ↔ ¬inside r.offsetA r.widthA)) ∧
    (r.mode = .exclusive → r.offsetB < period → (demandB r period n = true ↔ inside r.offsetB r.widthB))

/-- The checks of R13, R14 and R15 in the order of R16. -/
def Obligations.ChecksFailAsStated : Prop :=
  ∀ (r : PatternRecord) (period : Nat), 0 < period →
    let range := period ≤ r.offsetA ∨ period < r.widthA ∨ period ≤ r.offsetB ∨ period < r.widthB
    let both := ∃ n, n < period ∧ covers period r.offsetA r.widthA n = true ∧ covers period r.offsetB r.widthB n = true
    let apart (o w next : Nat) : Int := ((next : Int) - o - w) % period
    (range → checkRecord r period = some .range) ∧
    (¬range → r.mode = .off ∨ r.mode = .single → checkRecord r period = none) ∧
    (¬range → r.mode = .complementary →
      checkRecord r period = if 0 < r.widthA ∧ r.widthA < period ∧
        (r.widthA ≤ r.gap ∨ period - r.widthA ≤ r.gap) then some .gap else none) ∧
    (¬range → r.mode = .exclusive →
      (r.widthA = 0 ∨ r.widthB = 0 → checkRecord r period = none) ∧
      (0 < r.widthA → 0 < r.widthB →
        (both → checkRecord r period = some .overlap) ∧
        (¬both →
          (apart r.offsetA r.widthA r.offsetB < r.gap ∨ apart r.offsetB r.widthB r.offsetA < r.gap →
            checkRecord r period = some .gap) ∧
          (r.gap ≤ apart r.offsetA r.widthA r.offsetB → r.gap ≤ apart r.offsetB r.widthB r.offsetA →
            checkRecord r period = none))))

/-- A record that passes the checks never demands both outputs on one tick (R6). -/
def Obligations.CheckedRecordsDemandOneOutput : Prop :=
  ∀ (r : PatternRecord) (period n : Nat), n < period → checkRecord r period = none →
    ¬(demandA r period n = true ∧ demandB r period n = true)

/-- TICK (R3, R5, R6, R23, R24): the tick counter moves on, the division begins anew and the legs of the group are evaluated.
That the row brings the edges of REFCLK that the tick before it lacked is the model's choice of log entry 2. -/
def Obligations.TickEvaluatesTheLegs : Prop :=
  ∀ (g : Group) (s : State), s.condition = .operating → (s.group g).run = .running ∨ (s.group g).run = .halting →
    (s.group g).tick + 1 < (s.group g).timing.period →
    ∃ t, exec (.tick g) s = .next t ∧
      (∀ h, t.group h = if h = g then { s.group h with tick := (s.group h).tick + 1, division := 0 } else s.group h) ∧
      (InterlockLaw s → ∀ l, t.leg l =
        if (s.leg l).group = g then tickLeg false (s.group g).timing.period ((s.group g).tick + 1) (s.leg l)
        else s.leg l) ∧
      t = { s with groups := t.groups, legs := t.legs, refclkGap := 0 }

/-! ### The group timers (chapter 2) -/

/-- START from rest (R25 to R29): a frame start, the budget loaded, and the STARTED record behind those of the due sets. -/
def Obligations.StartBeginsAFrame : Prop :=
  ∀ (p : Port) (group : Byte) (g : Group) (s : State), CanTake s p → TableLaw s → LeaseLaw s → PendingItemLaw s →
    InterlockLaw s → group.toNat = groupNum g → s.holder (.group g) = some p → (s.group g).run = .stopped →
    s.monitor = .present → (s.group g).sync ≠ .startRise → (s.group g).sync ≠ .startFall →
    ∃ t, Answers (.start p group) p s t .ok (2 :: frameBytes ((s.group g).fn + 1)) .none ∧ FrameStarts g true s t ∧
      (t.group g).remaining = (t.group g).timing.budget ∧
      Served p
        (fun q => frameRecords g ((s.group g).fn + 1) s t q ++ [.groupState g .started ((s.group g).fn + 1)])
        (s.port p).restarted s t

/-- START otherwise (R29): the refusals in their order, ARMED from STOPPED, RUNNING from HALTING, no change in the rest. -/
def Obligations.StartInOtherStates : Prop :=
  ∀ (p : Port) (group : Byte) (s : State), CanTake s p →
    (1 < group.toNat → Refuses (.start p group) p s .badArg []) ∧
    (∀ g, group.toNat = groupNum g →
      (s.holder (.group g) ≠ some p → Refuses (.start p group) p s .notHolder []) ∧
      (s.holder (.group g) = some p →
        ((s.group g).run = .tripped → Refuses (.start p group) p s .groupState []) ∧
        ((s.group g).run = .stopped → s.monitor ≠ .present → Refuses (.start p group) p s .noClock []) ∧
        ((s.group g).run = .stopped → s.monitor = .present →
          (s.group g).sync = .startRise ∨ (s.group g).sync = .startFall →
          ∃ t, Answers (.start p group) p s t .ok (1 :: frameBytes (s.group g).fn) .none ∧
            (∀ h, t.group h = if h = g then { s.group h with run := .armed, tick := 0, division := 0 } else s.group h) ∧
            t = { s with ports := t.ports, groups := t.groups } ∧
            Served p (toAll (.groupState g .armed (s.group g).fn)) (s.port p).restarted s t) ∧
        ((s.group g).run = .halting →
          ∃ t, Answers (.start p group) p s t .ok (2 :: frameBytes (s.group g).fn) .none ∧
            (∀ h, t.group h = if h = g then { s.group h with run := .running } else s.group h) ∧
            t = { s with ports := t.ports, groups := t.groups } ∧
            Served p (toAll (.groupState g .started (s.group g).fn)) (s.port p).restarted s t) ∧
        ((s.group g).run = .armed ∨ (s.group g).run = .running →
          ∃ t, Answers (.start p group) p s t .ok (runByte (s.group g).run :: frameBytes (s.group g).fn) .none ∧
            TransactionOnly p s t)))

/-- STOP (R9, R10, R30): the refusals in their order, and the table of its effects. -/
def Obligations.StopByStateAndForm : Prop :=
  ∀ (p : Port) (group form : Byte) (s : State), CanTake s p →
    (1 < group.toNat ∨ 1 < form.toNat → Refuses (.stop p group form) p s .badArg []) ∧
    (∀ g, group.toNat = groupNum g → form.toNat ≤ 1 →
      (s.holder (.group g) ≠ some p → s.supervisor ≠ some p → Refuses (.stop p group form) p s .notHolder []) ∧
      (s.holder (.group g) = some p ∨ s.supervisor = some p →
        ((s.group g).run = .tripped → Refuses (.stop p group form) p s .groupState []) ∧
        ((s.group g).run = .armed ∨ ((s.group g).run = .running ∨ (s.group g).run = .halting) ∧ form = 0 →
          ∃ t, Answers (.stop p group form) p s t .ok (0 :: frameBytes (s.group g).fn) .none ∧ Stops g s t ∧
            (t.group g).remaining = (s.group g).remaining ∧
            Served p (toAll (.groupState g .stoppedNow (s.group g).fn)) (s.port p).restarted s t) ∧
        ((s.group g).run = .running → form = 1 →
          ∃ t, Answers (.stop p group form) p s t .ok (3 :: frameBytes (s.group g).fn) .none ∧
            (∀ h, t.group h = if h = g then { s.group h with run := .halting } else s.group h) ∧
            t = { s with ports := t.ports, groups := t.groups } ∧
            Served p (toAll (.groupState g .halting (s.group g).fn)) (s.port p).restarted s t) ∧
        ((s.group g).run = .stopped ∨ (s.group g).run = .halting ∧ form = 1 →
          ∃ t, Answers (.stop p group form) p s t .ok (runByte (s.group g).run :: frameBytes (s.group g).fn) .none ∧
            TransactionOnly p s t)))

/-- CONFIGURE_GROUP (R35): both settings are replaced, and a change from HOLD to IDLE releases the held levels. -/
def Obligations.ConfigureReplacesBothSettings : Prop :=
  ∀ (p : Port) (group sync out : Byte) (s : State), CanTake s p →
    (1 < group.toNat ∨ 5 < sync.toNat ∨ 1 < out.toNat →
      Refuses (.configureGroup p group sync out) p s .badArg []) ∧
    (∀ g (m : SyncMode) (o : StopOutput), group.toNat = groupNum g → syncByte m = sync → stopByte o = out →
      (s.holder (.group g) ≠ some p → Refuses (.configureGroup p group sync out) p s .notHolder []) ∧
      (s.holder (.group g) = some p →
        ((s.group g).run ≠ .stopped → Refuses (.configureGroup p group sync out) p s .groupState []) ∧
        ((s.group g).run = .stopped →
          ∃ t, Answers (.configureGroup p group sync out) p s t .ok [] .none ∧
            (∀ h, t.group h = if h = g then { s.group h with sync := m, stopOutput := o } else s.group h) ∧
            (∀ l, t.leg l =
              if (s.leg l).group = g ∧ (s.group g).stopOutput = .hold then restLeg o (s.leg l) else s.leg l) ∧
            t = { s with ports := t.ports, groups := t.groups, legs := t.legs } ∧
            Served p noRecords (s.port p).restarted s t)))

/-- ASSIGN_LEG (R11, R19, R20): the leg is in the named group with a forced OFF record. -/
def Obligations.AssignLegMovesTheLeg : Prop :=
  ∀ (p : Port) (leg group : Byte) (s : State), CanTake s p →
    (s.supervisor ≠ some p → Refuses (.assignLeg p leg group) p s .notSupervisor []) ∧
    (s.supervisor = some p →
      (5 < leg.toNat ∨ 1 < group.toNat → Refuses (.assignLeg p leg group) p s .badArg []) ∧
      (∀ l g, leg.toNat = legNum l → group.toNat = groupNum g →
        ((∃ c ∈ s.sets, c.hasEdit (.leg l) = true) → Refuses (.assignLeg p leg group) p s .inSet []) ∧
        ((∀ c ∈ s.sets, c.hasEdit (.leg l) = false) →
          ((s.group (s.leg l).group).run ≠ .stopped ∨ (s.group g).run ≠ .stopped →
            Refuses (.assignLeg p leg group) p s .groupState []) ∧
          ((s.group (s.leg l).group).run = .stopped → (s.group g).run = .stopped →
            ∃ t, Answers (.assignLeg p leg group) p s t .ok [] .none ∧
              (∀ k, t.leg k = if k = l then { offLeg false (s.leg k) with group := g } else s.leg k) ∧
              t = { s with ports := t.ports, legs := t.legs } ∧
              Served p noRecords (s.port p).restarted s t))))

/-- FALLBACK_HALT (R37): a notice on its way is taken, and a RUNNING group becomes HALTING. -/
def Obligations.FallbackHaltHaltsARunningGroup : Prop :=
  ∀ (g : Group) (s : State), s.condition = .operating → 0 < (s.group g).haltNotices →
    ∃ t, exec (.fallbackHalt g) s = .next t ∧
      (∀ h, t.group h = if h = g then { s.group h with
        haltNotices := (s.group h).haltNotices - 1
        run := if (s.group h).run = .running then .halting else (s.group h).run } else s.group h) ∧
      t = { s with ports := t.ports, groups := t.groups } ∧
      Told (if (s.group g).run = .running then toAll (.groupState g .fallbackHalt (s.group g).fn) else noRecords) s t

/-- The end of a frame, at its last tick (FRAME_END; past it, log entry 3) or at a resync edge after tick 3 (SYNC_EDGE): with
a budget the count decreases first; at 0, or in a HALTING group, the group stops at its FN, and otherwise a frame start
follows; only an applied group edit loads the count anew (R24, R26, R27, R28, R31, R34, R82). That FRAME_END brings the
edges of REFCLK that the last tick lacked is the model's choice of log entry 2. That SYNC_EDGE brings the two samples and an
edge of REFCLK, so that the pin, the sample, the level and the measure of REFCLK are set whatever they read, is that of log
entries 2 and 16. -/
def Obligations.FrameEndsStopOrStart : Prop :=
  ∀ (g : Group) (c : Instr) (s u : State), s.condition = .operating → TableLaw s → LeaseLaw s → PendingItemLaw s →
    InterlockLaw s → (s.group g).run = .running ∨ (s.group g).run = .halting → EndsFrame g c s u →
    let budget := (s.group g).timing.budget
    let left := if budget = 0 then (s.group g).remaining else (s.group g).remaining - 1
    (budget ≠ 0 ∧ left = 0 →
      ∃ t, exec c s = .next t ∧ Stops g u t ∧ (t.group g).remaining = 0 ∧
        Told (toAll (.groupState g .budget (s.group g).fn)) s t) ∧
    (¬(budget ≠ 0 ∧ left = 0) → (s.group g).run = .halting →
      ∃ t, exec c s = .next t ∧ Stops g u t ∧ (t.group g).remaining = left ∧
        Told (toAll (.groupState g .halted (s.group g).fn)) s t) ∧
    (¬(budget ≠ 0 ∧ left = 0) → (s.group g).run = .running →
      ∃ t, exec c s = .next t ∧ FrameStarts g false u t ∧ Told (frameRecords g ((s.group g).fn + 1) s t) s t ∧
        ((∀ k d, (k, d) ∈ s.sets.zip t.sets → dueAt g ((s.group g).fn + 1) k = true → d.wasApplied = true →
          k.hasEdit (.group g) = false) → (t.group g).remaining = left) ∧
        (∀ k d, (k, d) ∈ s.sets.zip t.sets → dueAt g ((s.group g).fn + 1) k = true → d.wasApplied = true →
          k.hasEdit (.group g) = true → (t.group g).remaining = (t.group g).timing.budget))

/-- SYNC_EDGE on an ARMED group in a START mode (R33): the selected edge begins a frame from rest; an edge that a mode and
state do not select is ignored (R32, R34) and leaves nothing behind but the pin, its sample and the recognised level at its
level; and no edge is recognised of a direction whose level is recognised already (R165). That the row brings the two samples
and an edge of REFCLK, so that the pin, the sample, the level and the measure of REFCLK are set whatever they read, is the
model's choice of log entries 2 and 16. -/
def Obligations.SyncEdgesStartOrAreIgnored : Prop :=
  ∀ (g : Group) (rising : Bool) (s : State), s.condition = .operating → TableLaw s → LeaseLaw s → PendingItemLaw s →
    InterlockLaw s →
    let selected := startSelects (s.group g).sync rising
    let resync := resyncSelects (s.group g).sync rising
    ((s.syncInput g).level ≠ rising → (s.group g).run = .armed → selected →
      ∃ t, exec (.syncEdge g rising) s = .next t ∧ FrameStarts g true (synced g rising s) t ∧
        (t.group g).remaining = (t.group g).timing.budget ∧
        Told (fun q => frameRecords g ((s.group g).fn + 1) s t q ++
          [.groupState g .syncStart ((s.group g).fn + 1)]) s t) ∧
    ((s.syncInput g).level ≠ rising →
      (s.group g).run = .stopped ∨ (s.group g).run = .tripped ∨ (s.group g).run = .armed ∧ ¬selected ∨
        ((s.group g).run = .running ∨ (s.group g).run = .halting) ∧ (¬resync ∨ (s.group g).tick ≤ 3) →
      exec (.syncEdge g rising) s = .next (synced g rising s)) ∧
    ((s.syncInput g).level = rising → exec (.syncEdge g rising) s = .next (clocked s))

/-- A set that alone is due at a frame start, of whatever kind, is applied exactly if it passes the validation against the
state it finds, and fails with the first failure otherwise (R78, R79, R80, R81). -/
def Obligations.LoneDueSetIsValidated : Prop :=
  ∀ (g : Group) (row : Instr) (c : ChangeSet) (s : State), s.condition = .operating → TableLaw s →
    StartsFrame g row s → c ∈ s.sets → (∀ k ∈ s.sets, dueAt g ((s.group g).fn + 1) k = true ↔ k = c) →
    ∃ t, exec row s = .next t ∧
      match s.validate g c.edits with
      | none => { c with body := .done c.target (.applied c.target) } ∈ t.sets
      | some (why, l) => { c with body := .done c.target (.failed why l c.target) } ∈ t.sets

/-! ### The trip unit (chapter 6) -/

/-- TRIP (R115, R116, R117): the refusals, and the groups of the mask tripped with cause COMMAND. -/
def Obligations.TripCommandTrips : Prop :=
  ∀ (p : Port) (mask : Byte) (s : State), CanTake s p → InterlockLaw s →
    (s.supervisor ≠ some p → Refuses (.trip p mask) p s .notSupervisor []) ∧
    (s.supervisor = some p → mask = 0 ∨ 3 < mask.toNat → Refuses (.trip p mask) p s .badArg []) ∧
    (s.supervisor = some p → mask ≠ 0 → mask.toNat ≤ 3 →
      let pick (g : Group) : Bool := mask.getLsbD (groupNum g)
      let code (g : Group) : Byte :=
        if pick g = false then 0
        else if (s.group g).run ≠ .tripped then 1
        else if (s.group g).causes.command = true then 3 else 2
      ∃ t, Answers (.trip p mask) p s t .ok
          [code .g0, runByte (s.group .g0).run, code .g1, runByte (s.group .g1).run] .none ∧
        TrippedBy pick .command s t ∧
        t = { s with ports := t.ports, groups := t.groups, legs := t.legs, sets := t.sets } ∧
        Served p (tripRecords s pick .command) (s.port p).restarted s t)

/-- CLEAR_TRIP (R40, R120): the refusals in their order, and the group STOPPED with its causes gone and its legs OFF. -/
def Obligations.ClearTripRestsTheGroup : Prop :=
  ∀ (p : Port) (group : Byte) (s : State), CanTake s p →
    (s.supervisor ≠ some p → Refuses (.clearTrip p group) p s .notSupervisor []) ∧
    (s.supervisor = some p → 1 < group.toNat → Refuses (.clearTrip p group) p s .badArg []) ∧
    (s.supervisor = some p → ∀ g, group.toNat = groupNum g →
      let blocked := (∃ i, (s.input i).mask.get g = true ∧ (s.input i).filter = .asserted) ∨
        (s.group g).causes.clock = true ∧ s.monitor ≠ .present
      ((s.group g).run ≠ .tripped → Refuses (.clearTrip p group) p s .groupState [runByte (s.group g).run]) ∧
      ((s.group g).run = .tripped → blocked → Refuses (.clearTrip p group) p s .tripActive
        [causesByte (s.group g).causes, filterByte (s.input .trip0).filter, filterByte (s.input .trip1).filter,
          monitorByte s.monitor]) ∧
      ((s.group g).run = .tripped → ¬blocked →
        ∃ t, Answers (.clearTrip p group) p s t .ok [] .none ∧
          (∀ h, t.group h = if h = g then { s.group h with
            run := .stopped, tick := 0, division := 0, causes := CauseSet.empty } else s.group h) ∧
          (∀ l, t.leg l =
            if (s.leg l).group = g then { offLeg false (s.leg l) with safeWait := none } else s.leg l) ∧
          t = { s with ports := t.ports, groups := t.groups, legs := t.legs } ∧
          Served p (toAll (.groupState g .cleared (s.group g).fn)) (s.port p).restarted s t))

/-- MAP_TRIP (R113, R114): the refusals, and the groups that the change trips at once. -/
def Obligations.MapTripReplacesTheMap : Prop :=
  ∀ (p : Port) (input mask time : Byte) (s : State), CanTake s p → InterlockLaw s →
    (s.supervisor ≠ some p → Refuses (.mapTrip p input mask time) p s .notSupervisor []) ∧
    (s.supervisor = some p → 1 < input.toNat ∨ 3 < mask.toNat →
      Refuses (.mapTrip p input mask time) p s .badArg []) ∧
    (s.supervisor = some p → ∀ i, input.toNat = inputNum i → mask.toNat ≤ 3 →
      let new (g : Group) : Bool := mask.getLsbD (groupNum g)
      let filter : Filter := match (s.input i).filter with
        | .quiet => .quiet
        | .qualifying low => if time.toNat ≤ low then .asserted else .qualifying low
        | .asserted => .asserted
      let pick (g : Group) : Bool := match (s.input i).filter with
        | .quiet => false
        | .qualifying low => decide (time.toNat ≤ low) && new g
        | .asserted => new g && !(s.input i).mask.get g
      ∃ t, Answers (.mapTrip p input mask time) p s t .ok [input, mask, time, filterByte filter] .none ∧
        (∀ k, t.input k = if k = i then { s.input k with
          mask := ⟨new .g0, new .g1⟩, filterTime := time.toNat, filter := filter } else s.input k) ∧
        TrippedBy pick (inputCause i) s t ∧
        t = { s with ports := t.ports, groups := t.groups, legs := t.legs, inputs := t.inputs, sets := t.sets } ∧
        Served p (tripRecords s pick (inputCause i)) (s.port p).restarted s t)

/-- SET_SAFE (R119): the refusals in their order; the values are replaced, and in a TRIPPED group they act at once. -/
def Obligations.SetSafeReplacesTheValues : Prop :=
  ∀ (p : Port) (leg levelA levelB delay : Byte) (s : State), CanTake s p →
    (s.supervisor ≠ some p → Refuses (.setSafe p leg levelA levelB delay) p s .notSupervisor []) ∧
    (s.supervisor = some p →
      (5 < leg.toNat ∨ 1 < levelA.toNat ∨ 1 < levelB.toNat ∨ levelA = 1 ∧ levelB = 1 →
        Refuses (.setSafe p leg levelA levelB delay) p s .badArg []) ∧
      (∀ l, leg.toNat = legNum l → levelA.toNat ≤ 1 → levelB.toNat ≤ 1 → ¬(levelA = 1 ∧ levelB = 1) →
        let run := (s.group (s.leg l).group).run
        let v : LegState := { s.leg l with
          safeA := decide (levelA = 1), safeB := decide (levelB = 1), safeDelay := delay.toNat }
        (run = .armed ∨ run = .running ∨ run = .halting →
          Refuses (.setSafe p leg levelA levelB delay) p s .groupState []) ∧
        (run = .stopped ∨ run = .tripped →
          ∃ t, Answers (.setSafe p leg levelA levelB delay) p s t .ok [leg, levelA, levelB, delay] .none ∧
            (∀ k, t.leg k = if k = l then (if run = .tripped then safeLeg v else v) else s.leg k) ∧
            t = { s with ports := t.ports, legs := t.legs } ∧
            Served p noRecords (s.port p).restarted s t)))

/-- TRIP_INPUT_LOW, TRIP_INPUT_QUALIFIED and TRIP_INPUT_HIGH (R112, R113): the filter of an input, and the groups of its mask
tripped where it reaches ASSERTED; a filter whose low time has not reached the time in force goes on qualifying. The filter
takes TRIP_INPUT_LOW and TRIP_INPUT_HIGH at a sample, where a microsecond of the oscillator has just ended; between two samples
the row moves the pin alone, for the next sample to find (R166). That a row stands at the beginning of the tenth of a
microsecond under way is the model's choice of log entry 21. -/
def Obligations.TripInputsQualifyAndTrip : Prop :=
  ∀ (i : TripInput) (s : State), s.condition = .operating → InterlockLaw s →
    (s.hkoTenths = 0 → (s.input i).filter = .quiet → (s.input i).filterTime ≠ 0 →
      ∃ t, exec (.tripInputLow i) s = .next t ∧
        (∀ k, t.input k = if k = i then { s.input k with pinLow := true, filter := .qualifying 0 } else s.input k) ∧
        t = { s with inputs := t.inputs }) ∧
    (∀ c, c = Instr.tripInputLow i ∧ s.hkoTenths = 0 ∧ (s.input i).filter = .quiet ∧ (s.input i).filterTime = 0 ∨
        c = Instr.tripInputQualified i ∧ (∃ low, (s.input i).filter = .qualifying low ∧ (s.input i).filterTime ≤ low) →
      ∃ t, exec c s = .next t ∧
        (∀ k, t.input k = if k = i then { s.input k with
          pinLow := if c = .tripInputLow i then true else (s.input k).pinLow, filter := .asserted } else s.input k) ∧
        TrippedBy (s.input i).mask.get (inputCause i) s t ∧
        t = { s with ports := t.ports, groups := t.groups, legs := t.legs, inputs := t.inputs, sets := t.sets } ∧
        Told (tripRecords s (s.input i).mask.get (inputCause i)) s t) ∧
    (∀ low, (s.input i).filter = .qualifying low → low < (s.input i).filterTime →
      exec (.tripInputQualified i) s = .next s) ∧
    (s.hkoTenths = 0 → ∃ t, exec (.tripInputHigh i) s = .next t ∧
      (∀ k, t.input k = if k = i then { s.input k with pinLow := false, filter := .quiet } else s.input k) ∧
      t = { s with inputs := t.inputs }) ∧
    (∀ c low, c = Instr.tripInputLow i ∧ low = true ∧ (s.hkoTenths ≠ 0 ∨ (s.input i).filter ≠ .quiet) ∨
        c = Instr.tripInputHigh i ∧ low = false ∧ s.hkoTenths ≠ 0 →
      ∃ t, exec c s = .next t ∧
        (∀ k, t.input k = if k = i then { s.input k with pinLow := low } else s.input k) ∧
        t = { s with inputs := t.inputs })

/-- SAFE_WAIT_EXPIRY (R118): with the safe wait at 0 the waiting output with the active safe level becomes ACTIVE; a wait with
time left, replaced by a SET SAFE taken first, goes on (R119). -/
def Obligations.SafeWaitEndsInActive : Prop :=
  ∀ (l : Leg) (s : State), s.condition = .operating → InterlockLaw s →
    ((s.leg l).safeWait ≠ some 0 → exec (.safeWaitExpiry l) s = .next s) ∧
    ((s.leg l).safeWait = some 0 → ∃ t, exec (.safeWaitExpiry l) s = .next t ∧ t = { s with legs := t.legs } ∧
      (∀ k, k ≠ l → t.leg k = s.leg k) ∧
      ((s.leg l).safeA = true → (s.leg l).outA.state = .waiting → (s.leg l).outB.state ≠ .active →
        t.leg l = { s.leg l with safeWait := none, outA := { (s.leg l).outA with state := .active, count := 0 } }) ∧
      ((s.leg l).safeB = true → (s.leg l).outB.state = .waiting → (s.leg l).outA.state ≠ .active →
        t.leg l = { s.leg l with safeWait := none, outB := { (s.leg l).outB with state := .active, count := 0 } }))

/-- CLOCK_LOST, RESTORE_COUNT_RESTART and CLOCK_RESTORED (R39, R122, R123). That the rows are taken at any moment and at any
restore count, and so stand for what REFCLK has done, is the model's choice of log entry 2. That the measure of REFCLK begins
anew at each gap that CLOCK_LOST or RESTORE_COUNT_RESTART reads is that of log entry 18. -/
def Obligations.ClockMonitorTripsAndRestores : Prop :=
  ∀ (s : State), s.condition = .operating → InterlockLaw s →
    (s.monitor = .present →
      let pick (g : Group) : Bool := decide ((s.group g).run ≠ .stopped)
      ∃ t, exec .clockLost s = .next t ∧ TrippedBy pick .clock s t ∧
        t = { s with
          ports := t.ports, groups := t.groups, legs := t.legs, sets := t.sets, monitor := .lost 0,
          refclkGap := 0 } ∧
        Told (fun q => .clock false :: tripRecords s pick .clock q) s t) ∧
    (∀ n, s.monitor = .lost n →
      exec .restoreCountRestart s = .next { s with monitor := .lost 0, refclkGap := 0 } ∧
      ∃ t, exec .clockRestored s = .next t ∧ t = { s with ports := t.ports, monitor := .present } ∧
        Told (toAll (.clock true)) s t)

/-! ### Inspection (chapter 8) -/

/-- IDENTIFY (R140), and PORT_STATUS (R141, section 9.7): the refusals in their order, and the sixteen bytes. -/
def Obligations.IdentifyAndPortStatus : Prop :=
  ∀ (p : Port) (named : Byte) (s : State), CanTake s p →
    (∃ t, Answers (.identify p) p s t .ok
        [0x57, 0x6C, 0x01, byteOf (portNum p),
          match s.supervisor with | some q => byteOf (portNum q) | none => 0xFF] .none ∧
      TransactionOnly p s t) ∧
    (2 < named.toNat → Refuses (.portStatus p named) p s .badArg []) ∧
    (∀ q, named.toNat = portNum q →
      (q ≠ p → s.supervisor ≠ some p → Refuses (.portStatus p named) p s .notSupervisor []) ∧
      (q = p ∨ s.supervisor = some p →
        let timer := if q = p then (s.port p).restarted else (s.port q).timer
        let flag (b : Bool) : Byte := if b = true then 1 else 0
        let openId : Nat := match s.sets.find? fun c => decide (c.owner = q) && c.isOpen with
          | some c => c.id
          | none => 0
        ∃ t, Answers (.portStatus p named) p s t .ok
            [named, flag (decide (s.supervisor = some q)), holderByte s.supervisor, byteOf (s.port q).timeout,
              flag timer.isSome, byteOf (match timer with | some n => n | none => 0),
              maskOf fun i => decide (s.holder i = some q), byteOf openId,
              byteOf (s.sets.countP fun c => decide (c.owner = q) && c.isPending),
              byteOf (s.sets.countP fun c => decide (c.owner = q) && c.isDone),
              byteOf (s.port q).queue.length, flag (s.port q).overrun, (s.port q).notify,
              match s.monitor with | .present => 0 | .lost _ => 1,
              byteOf (resultTable.idxOf (s.port q).prevResult), match (s.port q).prevResponse with | .complete => 0 | .cut => 1] .none ∧
          TransactionOnly p s t))

/-- READ_ACTIVE (R142, R143, section 9.7) of a leg, of a group, and of no item; and READ_PENDING (R144, R161): the edit of the
item in a PENDING set, or the absent values at the same length. -/
def Obligations.ReadActiveAndReadPending : Prop :=
  ∀ (p : Port) (item : Byte) (s : State), CanTake s p →
    (7 < item.toNat → Refuses (.readActive p item) p s .badArg []) ∧
    (∀ l, item.toNat = legNum l →
      let v := s.leg l
      ∃ t, Answers (.readActive p item) p s t .ok
          ([item, byteOf (groupNum v.group)] ++ patternBytes v.record ++
            [if v.safeA = true then 1 else 0, if v.safeB = true then 1 else 0, byteOf v.safeDelay] ++
            frameBytes (s.group v.group).fn) .none ∧
        TransactionOnly p s t) ∧
    (∀ g, item.toNat = 6 + groupNum g →
      let v := s.group g
      ∃ t, Answers (.readActive p item) p s t .ok
          ([item] ++ timingBytes v.timing ++
            [syncByte v.sync, stopByte v.stopOutput, runByte v.run] ++ frameBytes v.fn ++ numberBytes v.tick ++ numberBytes v.remaining ++
            [causesByte v.causes, byteOf (s.sets.countP fun c => c.isPending && decide (c.group = g))]) .none ∧
        TransactionOnly p s t) ∧
    (7 < item.toNat → Refuses (.readPending p item) p s .badArg []) ∧
    (∀ i : Item, item.toNat = i.num →
      ((∀ c ∈ s.sets, c.isPending = true → c.hasEdit i = false) →
        ∃ t, Answers (.readPending p item) p s t .ok
            (([0, 0, 0xFF, 0xFF] : List Byte) ++ List.replicate (match i with | .leg _ => 20 | .group _ => 13) 0) .none ∧
          TransactionOnly p s t) ∧
      (∀ c ∈ s.sets, TableLaw s → PendingItemLaw s → c.isPending = true → ∀ e ∈ c.edits, e.item = i →
        ∃ t, Answers (.readPending p item) p s t .ok
            ([1, byteOf c.id, byteOf (portNum c.owner), byteOf (groupNum c.group)] ++ frameBytes c.target ++
              frameBytes (s.group c.group).fn ++ match e with | .leg _ r => patternBytes r | .group _ v => timingBytes v) .none ∧
          TransactionOnly p s t))

/-- READ_OUTPUTS (R2, R145, R161, section 9.7): eight bytes for each leg, L0 first. -/
def Obligations.ReadOutputsGivesThePins : Prop :=
  ∀ (p : Port) (s : State), CanTake s p →
    let pin (pol : Polarity) (o : Output) : Nat :=
      if (o.state = .active ↔ pol = .activeHigh) then 1 else 0
    let driver (run : RunState) : Nat := match run with
      | .running | .halting => 0
      | .stopped | .armed => 64
      | .tripped => 128
    let wait (w : Option Nat) : Nat := match w with | none => 0 | some n => if n < 64 then n else 63
    let readout (l : Leg) : List Byte :=
      let v := s.leg l
      [byteOf (pin v.record.polarityA v.outA + 2 * pin v.record.polarityB v.outB), interlockByte v.outA.state,
        interlockByte v.outB.state] ++ numberBytes v.outA.count ++ numberBytes v.outB.count ++
        [byteOf (driver (s.group v.group).run + wait v.safeWait)]
    ∃ t, Answers (.readOutputs p) p s t .ok
        (readout .l0 ++ readout .l1 ++ readout .l2 ++ readout .l3 ++ readout .l4 ++ readout .l5) .none ∧
      TransactionOnly p s t

/-- READ_LEASES (R109) and SET_STATUS (R62). -/
def Obligations.ReadLeasesAndSetStatus : Prop :=
  ∀ (p : Port) (setId : Byte) (s : State), CanTake s p →
    (let leg (l : Leg) : List Byte := [holderByte (s.leg l).holder, if (s.leg l).fallback = .hold then 0 else 1]
      let group (g : Group) : List Byte :=
        [holderByte (s.group g).holder, if (s.group g).fallback = .run then 0 else 1]
      ∃ t, Answers (.readLeases p) p s t .ok
          (leg .l0 ++ leg .l1 ++ leg .l2 ++ leg .l3 ++ leg .l4 ++ leg .l5 ++ group .g0 ++ group .g1) .none ∧
        TransactionOnly p s t) ∧
    ((∀ c ∈ s.sets, c.id = setId.toNat → c.owner ≠ p) → Refuses (.setStatus p setId) p s .noSet []) ∧
    (∀ c ∈ s.sets, TableLaw s → c.id = setId.toNat → c.owner = p →
      ∃ t, Answers (.setStatus p setId) p s t .ok
          (statusLayout c) .none ∧
        TransactionOnly p s t)

/-! ### Power and the idle part (chapter 10) -/

/-- POWER_ON, RESETN_RELEASED, START_UP_COMPLETE, POWER_FAIL and RESETN_ASSERTED (R162, R163, R164). That the pins' levels are
kept, and that the level found on a sync input is no edge, are the model's, log entries 8 and 16; and so is what State.reset
holds where the manual gives a part in RESET no value: no supervisor, empty serial lines, a time base and a measure of REFCLK
of 0, log entry 4. -/
def Obligations.PowerMovesTheCondition : Prop :=
  ∀ (s : State) (straps : BitVec 2),
    (s.condition = .reset → ∀ c, c = Instr.powerOn straps ∨ c = Instr.resetnReleased straps →
      exec c s = .next { s with
        condition := .startUp
        supervisor := if straps = 0 then some .p0 else if straps = 1 then some .p1 else if straps = 2 then some .p2
          else none }) ∧
    (s.condition = .startUp →
      ∃ t, exec .startUpComplete s = .next t ∧
        (∀ q, t.port q = { s.port q with
          txn := if (s.port q).selectLow = true then .discard false else .deselected }) ∧
        (∀ i, t.input i = { s.input i with
          filter := if (s.input i).pinLow = true then .qualifying 0 else .quiet }) ∧
        t = { s with
          condition := .operating, hkoTenths := 0, hkoMicros := 0, monitor := .lost 0, refclkGap := 0, ports := t.ports,
          inputs := t.inputs
          syncs := s.syncs.map fun _ v => { pinHigh := v.pinHigh, sample := v.pinHigh, level := v.pinHigh } }) ∧
    (∀ c, c = Instr.powerFail ∨ c = Instr.resetnAsserted →
      ∃ t, exec c s = .next t ∧
        (∀ q, t.port q = { State.reset.port q with
          selectLow := (s.port q).selectLow
          line := { (State.reset.port q).line with clockHigh := (s.port q).line.clockHigh } }) ∧
        (∀ i, t.input i = { State.reset.input i with pinLow := (s.input i).pinLow }) ∧
        t = { State.reset with
          ports := t.ports, inputs := t.inputs
          syncs := s.syncs.map fun _ v => { pinHigh := v.pinHigh, sample := false, level := false }
          choices := s.choices, pending := s.pending })

/-- The idle part, the model's choice of log entries 1 and 6: outside OPERATING nothing happens; in OPERATING one thing does
that no row of the table stands for, the one that the free value names, and it is said of each what it changes: a tenth of a
microsecond passing, an edge of REFCLK, a level of a sync pin, of a trip pin or of a serial clock, or a notice that reaches a
group timer. Nothing else changes but the rows that join the queue and the count of choices. That the times
of the housekeeping oscillator are told in tenths of a microsecond, with a free value for their ±10 %, is log entry 8, and that a REFCLK that stays away is one gap after another is log entry 18. What
SOx shows of the serial lines is R146's, and the form of a response R150's. -/
def Obligations.IdleLetsOneThingHappen : Prop :=
  ∀ (s : State), SerialShows s ∧ (s.pending = [] →
    (s.condition ≠ .operating → step s = .next s) ∧
    (s.condition = .operating →
      step s = .next ({ s with choices := s.choices + 1 }.happen (Config.happens s.choices)) ∧
      ∀ what : Happening,
        let t := { s with choices := s.choices + 1 }.happen what
        match what with
        | .oscillator => TenthPasses s t
        | .refclk => RefclkRises s t
        | .syncPin g high =>
          (∀ h, t.syncInput h = if h = g then { s.syncInput h with pinHigh := high } else s.syncInput h) ∧
            t = { s with syncs := t.syncs, choices := t.choices }
        | .tripPin i low =>
          (∀ k, t.input k = if k = i then { s.input k with pinLow := low } else s.input k) ∧
            t = { s with inputs := t.inputs, choices := t.choices }
        | .sck p high data =>
          if (s.port p).line.clockHigh = high then t = { s with choices := t.choices } else SerialClock p high data s t
        | .notice g =>
          t = { s with
            choices := t.choices, pending := if (s.group g).haltNotices = 0 then [] else [.fallbackHalt g] }))
end

