-- ==== Sys2Proof/Laws/State.lean ====
section
/-! SUPPORT. What each record update of State leaves in each field: one lemma a field and update, so that no later proof
unfolds an update. The normal form of a reading is `s.port p`, `s.leg l`, `s.group g` and `s.input i`. -/

namespace Sys2Proof.Machine

/-! ### The small tables -/

@[simp] theorem PerPort.get_map {α β : Type} (f : Port → α → β) (x : PerPort α) (k : Port) :
    (x.map f).get k = f k (x.get k) := by
  cases k <;> rfl

theorem PerPort.ext_get {α : Type} {x y : PerPort α} (h : ∀ k, x.get k = y.get k) : x = y := by
  cases x with | _ => cases y with | _ =>
    simp only [PerPort.mk.injEq]; exact ⟨h .p0, h .p1, h .p2⟩

@[simp] theorem PerPort.map_id {α : Type} (x : PerPort α) : x.map (fun _ v => v) = x := rfl

theorem PerPort.map_map {α β γ : Type} (f : Port → α → β) (h : Port → β → γ) (x : PerPort α) :
    (x.map f).map h = x.map fun k v => h k (f k v) := rfl

@[simp] theorem PerGroup.get_map {α β : Type} (f : Group → α → β) (x : PerGroup α) (k : Group) :
    (x.map f).get k = f k (x.get k) := by
  cases k <;> rfl

theorem PerGroup.ext_get {α : Type} {x y : PerGroup α} (h : ∀ k, x.get k = y.get k) : x = y := by
  cases x with | _ => cases y with | _ =>
    simp only [PerGroup.mk.injEq]; exact ⟨h .g0, h .g1⟩

@[simp] theorem PerGroup.map_id {α : Type} (x : PerGroup α) : x.map (fun _ v => v) = x := rfl

theorem PerGroup.map_map {α β γ : Type} (f : Group → α → β) (h : Group → β → γ) (x : PerGroup α) :
    (x.map f).map h = x.map fun k v => h k (f k v) := rfl

@[simp] theorem PerLeg.get_map {α β : Type} (f : Leg → α → β) (x : PerLeg α) (k : Leg) :
    (x.map f).get k = f k (x.get k) := by
  cases k <;> rfl

theorem PerLeg.ext_get {α : Type} {x y : PerLeg α} (h : ∀ k, x.get k = y.get k) : x = y := by
  cases x with | _ => cases y with | _ =>
    simp only [PerLeg.mk.injEq]; exact ⟨h .l0, h .l1, h .l2, h .l3, h .l4, h .l5⟩

@[simp] theorem PerLeg.map_id {α : Type} (x : PerLeg α) : x.map (fun _ v => v) = x := rfl

theorem PerLeg.map_map {α β γ : Type} (f : Leg → α → β) (h : Leg → β → γ) (x : PerLeg α) :
    (x.map f).map h = x.map fun k v => h k (f k v) := rfl

@[simp] theorem PerInput.get_map {α β : Type} (f : TripInput → α → β) (x : PerInput α) (k : TripInput) :
    (x.map f).get k = f k (x.get k) := by
  cases k <;> rfl

theorem PerInput.ext_get {α : Type} {x y : PerInput α} (h : ∀ k, x.get k = y.get k) : x = y := by
  cases x with | _ => cases y with | _ =>
    simp only [PerInput.mk.injEq]; exact ⟨h .trip0, h .trip1⟩

@[simp] theorem PerInput.map_id {α : Type} (x : PerInput α) : x.map (fun _ v => v) = x := rfl

theorem PerInput.map_map {α β γ : Type} (f : TripInput → α → β) (h : TripInput → β → γ) (x : PerInput α) :
    (x.map f).map h = x.map fun k v => h k (f k v) := rfl

theorem mem_allPorts (p : Port) : p ∈ allPorts := by cases p <;> decide
theorem mem_allGroups (g : Group) : g ∈ allGroups := by cases g <;> decide
theorem mem_allLegs (l : Leg) : l ∈ allLegs := by cases l <;> decide
theorem mem_allInputs (i : TripInput) : i ∈ allInputs := by cases i <;> decide
theorem mem_allItems (i : Item) : i ∈ allItems := by
  cases i with
  | leg l => cases l <;> decide
  | group g => cases g <;> decide

/-! ### Readings of a state -/

@[simp] theorem State.ports_get (s : State) (p : Port) : s.ports.get p = s.port p := rfl
@[simp] theorem State.legs_get (s : State) (l : Leg) : s.legs.get l = s.leg l := rfl
@[simp] theorem State.groups_get (s : State) (g : Group) : s.groups.get g = s.group g := rfl
@[simp] theorem State.inputs_get (s : State) (i : TripInput) : s.inputs.get i = s.input i := rfl
@[simp] theorem State.syncs_get (s : State) (g : Group) : s.syncs.get g = s.syncInput g := rfl

section mk
variable (co : Condition) (su : Option Port) (ht hk : Nat) (po : PerPort PortState) (le : PerLeg LegState)
  (gr : PerGroup GroupState) (inp : PerInput InputState) (sy : PerGroup SyncState) (mo : Monitor) (ga : Nat)
  (se : List ChangeSet) (ni : Nat) (sc : Frame) (ch : Nat) (pe : List Instr)

@[simp] theorem State.port_mk (p : Port) : (State.mk co su ht hk po le gr inp sy mo ga se ni sc ch pe).port p = po.get p := rfl
@[simp] theorem State.leg_mk (l : Leg) : (State.mk co su ht hk po le gr inp sy mo ga se ni sc ch pe).leg l = le.get l := rfl
@[simp] theorem State.group_mk (g : Group) : (State.mk co su ht hk po le gr inp sy mo ga se ni sc ch pe).group g = gr.get g := rfl
@[simp] theorem State.input_mk (i : TripInput) : (State.mk co su ht hk po le gr inp sy mo ga se ni sc ch pe).input i = inp.get i := rfl
@[simp] theorem State.syncInput_mk (g : Group) : (State.mk co su ht hk po le gr inp sy mo ga se ni sc ch pe).syncInput g = sy.get g := rfl
@[simp] theorem State.operating_mk : (State.mk co su ht hk po le gr inp sy mo ga se ni sc ch pe).operating = decide (co = .operating) := rfl

end mk

/-! ### `mapPorts` -/

section mapPorts
variable (s : State) (f : Port → PortState → PortState)

@[simp] theorem State.mapPorts_condition : (s.mapPorts f).condition = s.condition := rfl
@[simp] theorem State.mapPorts_supervisor : (s.mapPorts f).supervisor = s.supervisor := rfl
@[simp] theorem State.mapPorts_hkoTenths : (s.mapPorts f).hkoTenths = s.hkoTenths := rfl
@[simp] theorem State.mapPorts_hkoMicros : (s.mapPorts f).hkoMicros = s.hkoMicros := rfl
@[simp] theorem State.mapPorts_legs : (s.mapPorts f).legs = s.legs := rfl
@[simp] theorem State.mapPorts_groups : (s.mapPorts f).groups = s.groups := rfl
@[simp] theorem State.mapPorts_inputs : (s.mapPorts f).inputs = s.inputs := rfl
@[simp] theorem State.mapPorts_syncs : (s.mapPorts f).syncs = s.syncs := rfl
@[simp] theorem State.mapPorts_monitor : (s.mapPorts f).monitor = s.monitor := rfl
@[simp] theorem State.mapPorts_refclkGap : (s.mapPorts f).refclkGap = s.refclkGap := rfl
@[simp] theorem State.mapPorts_sets : (s.mapPorts f).sets = s.sets := rfl
@[simp] theorem State.mapPorts_nextId : (s.mapPorts f).nextId = s.nextId := rfl
@[simp] theorem State.mapPorts_sealCount : (s.mapPorts f).sealCount = s.sealCount := rfl
@[simp] theorem State.mapPorts_choices : (s.mapPorts f).choices = s.choices := rfl
@[simp] theorem State.mapPorts_pending : (s.mapPorts f).pending = s.pending := rfl
@[simp] theorem State.mapPorts_ports : (s.mapPorts f).ports = s.ports.map f := rfl
@[simp] theorem State.mapPorts_port (q : Port) : (s.mapPorts f).port q = f q (s.port q) := by cases q <;> rfl
@[simp] theorem State.mapPorts_leg (k : Leg) : (s.mapPorts f).leg k = s.leg k := rfl
@[simp] theorem State.mapPorts_group (k : Group) : (s.mapPorts f).group k = s.group k := rfl
@[simp] theorem State.mapPorts_input (k : TripInput) : (s.mapPorts f).input k = s.input k := rfl
@[simp] theorem State.mapPorts_syncInput (k : Group) : (s.mapPorts f).syncInput k = s.syncInput k := rfl
@[simp] theorem State.mapPorts_operating : (s.mapPorts f).operating = s.operating := rfl

end mapPorts

/-! ### `mapLegs` -/

section mapLegs
variable (s : State) (f : Leg → LegState → LegState)

@[simp] theorem State.mapLegs_condition : (s.mapLegs f).condition = s.condition := rfl
@[simp] theorem State.mapLegs_supervisor : (s.mapLegs f).supervisor = s.supervisor := rfl
@[simp] theorem State.mapLegs_hkoTenths : (s.mapLegs f).hkoTenths = s.hkoTenths := rfl
@[simp] theorem State.mapLegs_hkoMicros : (s.mapLegs f).hkoMicros = s.hkoMicros := rfl
@[simp] theorem State.mapLegs_ports : (s.mapLegs f).ports = s.ports := rfl
@[simp] theorem State.mapLegs_groups : (s.mapLegs f).groups = s.groups := rfl
@[simp] theorem State.mapLegs_inputs : (s.mapLegs f).inputs = s.inputs := rfl
@[simp] theorem State.mapLegs_syncs : (s.mapLegs f).syncs = s.syncs := rfl
@[simp] theorem State.mapLegs_monitor : (s.mapLegs f).monitor = s.monitor := rfl
@[simp] theorem State.mapLegs_refclkGap : (s.mapLegs f).refclkGap = s.refclkGap := rfl
@[simp] theorem State.mapLegs_sets : (s.mapLegs f).sets = s.sets := rfl
@[simp] theorem State.mapLegs_nextId : (s.mapLegs f).nextId = s.nextId := rfl
@[simp] theorem State.mapLegs_sealCount : (s.mapLegs f).sealCount = s.sealCount := rfl
@[simp] theorem State.mapLegs_choices : (s.mapLegs f).choices = s.choices := rfl
@[simp] theorem State.mapLegs_pending : (s.mapLegs f).pending = s.pending := rfl
@[simp] theorem State.mapLegs_port (q : Port) : (s.mapLegs f).port q = s.port q := rfl
@[simp] theorem State.mapLegs_legs : (s.mapLegs f).legs = s.legs.map f := rfl
@[simp] theorem State.mapLegs_leg (k : Leg) : (s.mapLegs f).leg k = f k (s.leg k) := by cases k <;> rfl
@[simp] theorem State.mapLegs_group (k : Group) : (s.mapLegs f).group k = s.group k := rfl
@[simp] theorem State.mapLegs_input (k : TripInput) : (s.mapLegs f).input k = s.input k := rfl
@[simp] theorem State.mapLegs_syncInput (k : Group) : (s.mapLegs f).syncInput k = s.syncInput k := rfl
@[simp] theorem State.mapLegs_operating : (s.mapLegs f).operating = s.operating := rfl

end mapLegs

/-! ### `mapGroups` -/

section mapGroups
variable (s : State) (f : Group → GroupState → GroupState)

@[simp] theorem State.mapGroups_condition : (s.mapGroups f).condition = s.condition := rfl
@[simp] theorem State.mapGroups_supervisor : (s.mapGroups f).supervisor = s.supervisor := rfl
@[simp] theorem State.mapGroups_hkoTenths : (s.mapGroups f).hkoTenths = s.hkoTenths := rfl
@[simp] theorem State.mapGroups_hkoMicros : (s.mapGroups f).hkoMicros = s.hkoMicros := rfl
@[simp] theorem State.mapGroups_ports : (s.mapGroups f).ports = s.ports := rfl
@[simp] theorem State.mapGroups_legs : (s.mapGroups f).legs = s.legs := rfl
@[simp] theorem State.mapGroups_inputs : (s.mapGroups f).inputs = s.inputs := rfl
@[simp] theorem State.mapGroups_syncs : (s.mapGroups f).syncs = s.syncs := rfl
@[simp] theorem State.mapGroups_monitor : (s.mapGroups f).monitor = s.monitor := rfl
@[simp] theorem State.mapGroups_refclkGap : (s.mapGroups f).refclkGap = s.refclkGap := rfl
@[simp] theorem State.mapGroups_sets : (s.mapGroups f).sets = s.sets := rfl
@[simp] theorem State.mapGroups_nextId : (s.mapGroups f).nextId = s.nextId := rfl
@[simp] theorem State.mapGroups_sealCount : (s.mapGroups f).sealCount = s.sealCount := rfl
@[simp] theorem State.mapGroups_choices : (s.mapGroups f).choices = s.choices := rfl
@[simp] theorem State.mapGroups_pending : (s.mapGroups f).pending = s.pending := rfl
@[simp] theorem State.mapGroups_port (q : Port) : (s.mapGroups f).port q = s.port q := rfl
@[simp] theorem State.mapGroups_leg (k : Leg) : (s.mapGroups f).leg k = s.leg k := rfl
@[simp] theorem State.mapGroups_groups : (s.mapGroups f).groups = s.groups.map f := rfl
@[simp] theorem State.mapGroups_group (k : Group) : (s.mapGroups f).group k = f k (s.group k) := by cases k <;> rfl
@[simp] theorem State.mapGroups_input (k : TripInput) : (s.mapGroups f).input k = s.input k := rfl
@[simp] theorem State.mapGroups_syncInput (k : Group) : (s.mapGroups f).syncInput k = s.syncInput k := rfl
@[simp] theorem State.mapGroups_operating : (s.mapGroups f).operating = s.operating := rfl

end mapGroups

/-! ### `mapInputs` -/

section mapInputs
variable (s : State) (f : TripInput → InputState → InputState)

@[simp] theorem State.mapInputs_condition : (s.mapInputs f).condition = s.condition := rfl
@[simp] theorem State.mapInputs_supervisor : (s.mapInputs f).supervisor = s.supervisor := rfl
@[simp] theorem State.mapInputs_hkoTenths : (s.mapInputs f).hkoTenths = s.hkoTenths := rfl
@[simp] theorem State.mapInputs_hkoMicros : (s.mapInputs f).hkoMicros = s.hkoMicros := rfl
@[simp] theorem State.mapInputs_ports : (s.mapInputs f).ports = s.ports := rfl
@[simp] theorem State.mapInputs_legs : (s.mapInputs f).legs = s.legs := rfl
@[simp] theorem State.mapInputs_groups : (s.mapInputs f).groups = s.groups := rfl
@[simp] theorem State.mapInputs_syncs : (s.mapInputs f).syncs = s.syncs := rfl
@[simp] theorem State.mapInputs_monitor : (s.mapInputs f).monitor = s.monitor := rfl
@[simp] theorem State.mapInputs_refclkGap : (s.mapInputs f).refclkGap = s.refclkGap := rfl
@[simp] theorem State.mapInputs_sets : (s.mapInputs f).sets = s.sets := rfl
@[simp] theorem State.mapInputs_nextId : (s.mapInputs f).nextId = s.nextId := rfl
@[simp] theorem State.mapInputs_sealCount : (s.mapInputs f).sealCount = s.sealCount := rfl
@[simp] theorem State.mapInputs_choices : (s.mapInputs f).choices = s.choices := rfl
@[simp] theorem State.mapInputs_pending : (s.mapInputs f).pending = s.pending := rfl
@[simp] theorem State.mapInputs_port (q : Port) : (s.mapInputs f).port q = s.port q := rfl
@[simp] theorem State.mapInputs_leg (k : Leg) : (s.mapInputs f).leg k = s.leg k := rfl
@[simp] theorem State.mapInputs_group (k : Group) : (s.mapInputs f).group k = s.group k := rfl
@[simp] theorem State.mapInputs_inputs : (s.mapInputs f).inputs = s.inputs.map f := rfl
@[simp] theorem State.mapInputs_input (k : TripInput) : (s.mapInputs f).input k = f k (s.input k) := by cases k <;> rfl
@[simp] theorem State.mapInputs_syncInput (k : Group) : (s.mapInputs f).syncInput k = s.syncInput k := rfl
@[simp] theorem State.mapInputs_operating : (s.mapInputs f).operating = s.operating := rfl

end mapInputs

/-! ### `modPort` -/

section modPort
variable (s : State) (p : Port) (f : PortState → PortState)

@[simp] theorem State.modPort_condition : (s.modPort p f).condition = s.condition := rfl
@[simp] theorem State.modPort_supervisor : (s.modPort p f).supervisor = s.supervisor := rfl
@[simp] theorem State.modPort_hkoTenths : (s.modPort p f).hkoTenths = s.hkoTenths := rfl
@[simp] theorem State.modPort_hkoMicros : (s.modPort p f).hkoMicros = s.hkoMicros := rfl
@[simp] theorem State.modPort_legs : (s.modPort p f).legs = s.legs := rfl
@[simp] theorem State.modPort_groups : (s.modPort p f).groups = s.groups := rfl
@[simp] theorem State.modPort_inputs : (s.modPort p f).inputs = s.inputs := rfl
@[simp] theorem State.modPort_syncs : (s.modPort p f).syncs = s.syncs := rfl
@[simp] theorem State.modPort_monitor : (s.modPort p f).monitor = s.monitor := rfl
@[simp] theorem State.modPort_refclkGap : (s.modPort p f).refclkGap = s.refclkGap := rfl
@[simp] theorem State.modPort_sets : (s.modPort p f).sets = s.sets := rfl
@[simp] theorem State.modPort_nextId : (s.modPort p f).nextId = s.nextId := rfl
@[simp] theorem State.modPort_sealCount : (s.modPort p f).sealCount = s.sealCount := rfl
@[simp] theorem State.modPort_choices : (s.modPort p f).choices = s.choices := rfl
@[simp] theorem State.modPort_pending : (s.modPort p f).pending = s.pending := rfl
@[simp] theorem State.modPort_port (q : Port) :
    (s.modPort p f).port q = if q = p then f (s.port q) else s.port q := by cases q <;> rfl
@[simp] theorem State.modPort_leg (k : Leg) : (s.modPort p f).leg k = s.leg k := rfl
@[simp] theorem State.modPort_group (k : Group) : (s.modPort p f).group k = s.group k := rfl
@[simp] theorem State.modPort_input (k : TripInput) : (s.modPort p f).input k = s.input k := rfl
@[simp] theorem State.modPort_syncInput (k : Group) : (s.modPort p f).syncInput k = s.syncInput k := rfl
@[simp] theorem State.modPort_operating : (s.modPort p f).operating = s.operating := rfl

end modPort

/-! ### `modLeg` -/

section modLeg
variable (s : State) (l : Leg) (f : LegState → LegState)

@[simp] theorem State.modLeg_condition : (s.modLeg l f).condition = s.condition := rfl
@[simp] theorem State.modLeg_supervisor : (s.modLeg l f).supervisor = s.supervisor := rfl
@[simp] theorem State.modLeg_hkoTenths : (s.modLeg l f).hkoTenths = s.hkoTenths := rfl
@[simp] theorem State.modLeg_hkoMicros : (s.modLeg l f).hkoMicros = s.hkoMicros := rfl
@[simp] theorem State.modLeg_ports : (s.modLeg l f).ports = s.ports := rfl
@[simp] theorem State.modLeg_groups : (s.modLeg l f).groups = s.groups := rfl
@[simp] theorem State.modLeg_inputs : (s.modLeg l f).inputs = s.inputs := rfl
@[simp] theorem State.modLeg_syncs : (s.modLeg l f).syncs = s.syncs := rfl
@[simp] theorem State.modLeg_monitor : (s.modLeg l f).monitor = s.monitor := rfl
@[simp] theorem State.modLeg_refclkGap : (s.modLeg l f).refclkGap = s.refclkGap := rfl
@[simp] theorem State.modLeg_sets : (s.modLeg l f).sets = s.sets := rfl
@[simp] theorem State.modLeg_nextId : (s.modLeg l f).nextId = s.nextId := rfl
@[simp] theorem State.modLeg_sealCount : (s.modLeg l f).sealCount = s.sealCount := rfl
@[simp] theorem State.modLeg_choices : (s.modLeg l f).choices = s.choices := rfl
@[simp] theorem State.modLeg_pending : (s.modLeg l f).pending = s.pending := rfl
@[simp] theorem State.modLeg_port (q : Port) : (s.modLeg l f).port q = s.port q := rfl
@[simp] theorem State.modLeg_leg (k : Leg) :
    (s.modLeg l f).leg k = if k = l then f (s.leg k) else s.leg k := by cases k <;> rfl
@[simp] theorem State.modLeg_group (k : Group) : (s.modLeg l f).group k = s.group k := rfl
@[simp] theorem State.modLeg_input (k : TripInput) : (s.modLeg l f).input k = s.input k := rfl
@[simp] theorem State.modLeg_syncInput (k : Group) : (s.modLeg l f).syncInput k = s.syncInput k := rfl
@[simp] theorem State.modLeg_operating : (s.modLeg l f).operating = s.operating := rfl

end modLeg

/-! ### `modGroup` -/

section modGroup
variable (s : State) (g : Group) (f : GroupState → GroupState)

@[simp] theorem State.modGroup_condition : (s.modGroup g f).condition = s.condition := rfl
@[simp] theorem State.modGroup_supervisor : (s.modGroup g f).supervisor = s.supervisor := rfl
@[simp] theorem State.modGroup_hkoTenths : (s.modGroup g f).hkoTenths = s.hkoTenths := rfl
@[simp] theorem State.modGroup_hkoMicros : (s.modGroup g f).hkoMicros = s.hkoMicros := rfl
@[simp] theorem State.modGroup_ports : (s.modGroup g f).ports = s.ports := rfl
@[simp] theorem State.modGroup_legs : (s.modGroup g f).legs = s.legs := rfl
@[simp] theorem State.modGroup_inputs : (s.modGroup g f).inputs = s.inputs := rfl
@[simp] theorem State.modGroup_syncs : (s.modGroup g f).syncs = s.syncs := rfl
@[simp] theorem State.modGroup_monitor : (s.modGroup g f).monitor = s.monitor := rfl
@[simp] theorem State.modGroup_refclkGap : (s.modGroup g f).refclkGap = s.refclkGap := rfl
@[simp] theorem State.modGroup_sets : (s.modGroup g f).sets = s.sets := rfl
@[simp] theorem State.modGroup_nextId : (s.modGroup g f).nextId = s.nextId := rfl
@[simp] theorem State.modGroup_sealCount : (s.modGroup g f).sealCount = s.sealCount := rfl
@[simp] theorem State.modGroup_choices : (s.modGroup g f).choices = s.choices := rfl
@[simp] theorem State.modGroup_pending : (s.modGroup g f).pending = s.pending := rfl
@[simp] theorem State.modGroup_port (q : Port) : (s.modGroup g f).port q = s.port q := rfl
@[simp] theorem State.modGroup_leg (k : Leg) : (s.modGroup g f).leg k = s.leg k := rfl
@[simp] theorem State.modGroup_group (k : Group) :
    (s.modGroup g f).group k = if k = g then f (s.group k) else s.group k := by cases k <;> rfl
@[simp] theorem State.modGroup_input (k : TripInput) : (s.modGroup g f).input k = s.input k := rfl
@[simp] theorem State.modGroup_syncInput (k : Group) : (s.modGroup g f).syncInput k = s.syncInput k := rfl
@[simp] theorem State.modGroup_operating : (s.modGroup g f).operating = s.operating := rfl

end modGroup

/-! ### `modInput` -/

section modInput
variable (s : State) (i : TripInput) (f : InputState → InputState)

@[simp] theorem State.modInput_condition : (s.modInput i f).condition = s.condition := rfl
@[simp] theorem State.modInput_supervisor : (s.modInput i f).supervisor = s.supervisor := rfl
@[simp] theorem State.modInput_hkoTenths : (s.modInput i f).hkoTenths = s.hkoTenths := rfl
@[simp] theorem State.modInput_hkoMicros : (s.modInput i f).hkoMicros = s.hkoMicros := rfl
@[simp] theorem State.modInput_ports : (s.modInput i f).ports = s.ports := rfl
@[simp] theorem State.modInput_legs : (s.modInput i f).legs = s.legs := rfl
@[simp] theorem State.modInput_groups : (s.modInput i f).groups = s.groups := rfl
@[simp] theorem State.modInput_syncs : (s.modInput i f).syncs = s.syncs := rfl
@[simp] theorem State.modInput_monitor : (s.modInput i f).monitor = s.monitor := rfl
@[simp] theorem State.modInput_refclkGap : (s.modInput i f).refclkGap = s.refclkGap := rfl
@[simp] theorem State.modInput_sets : (s.modInput i f).sets = s.sets := rfl
@[simp] theorem State.modInput_nextId : (s.modInput i f).nextId = s.nextId := rfl
@[simp] theorem State.modInput_sealCount : (s.modInput i f).sealCount = s.sealCount := rfl
@[simp] theorem State.modInput_choices : (s.modInput i f).choices = s.choices := rfl
@[simp] theorem State.modInput_pending : (s.modInput i f).pending = s.pending := rfl
@[simp] theorem State.modInput_port (q : Port) : (s.modInput i f).port q = s.port q := rfl
@[simp] theorem State.modInput_leg (k : Leg) : (s.modInput i f).leg k = s.leg k := rfl
@[simp] theorem State.modInput_group (k : Group) : (s.modInput i f).group k = s.group k := rfl
@[simp] theorem State.modInput_input (k : TripInput) :
    (s.modInput i f).input k = if k = i then f (s.input k) else s.input k := by cases k <;> rfl
@[simp] theorem State.modInput_syncInput (k : Group) : (s.modInput i f).syncInput k = s.syncInput k := rfl
@[simp] theorem State.modInput_operating : (s.modInput i f).operating = s.operating := rfl

end modInput

/-! ### `modLegsOf` -/

section modLegsOf
variable (s : State) (g : Group) (f : LegState → LegState)

@[simp] theorem State.modLegsOf_condition : (s.modLegsOf g f).condition = s.condition := rfl
@[simp] theorem State.modLegsOf_supervisor : (s.modLegsOf g f).supervisor = s.supervisor := rfl
@[simp] theorem State.modLegsOf_hkoTenths : (s.modLegsOf g f).hkoTenths = s.hkoTenths := rfl
@[simp] theorem State.modLegsOf_hkoMicros : (s.modLegsOf g f).hkoMicros = s.hkoMicros := rfl
@[simp] theorem State.modLegsOf_ports : (s.modLegsOf g f).ports = s.ports := rfl
@[simp] theorem State.modLegsOf_groups : (s.modLegsOf g f).groups = s.groups := rfl
@[simp] theorem State.modLegsOf_inputs : (s.modLegsOf g f).inputs = s.inputs := rfl
@[simp] theorem State.modLegsOf_syncs : (s.modLegsOf g f).syncs = s.syncs := rfl
@[simp] theorem State.modLegsOf_monitor : (s.modLegsOf g f).monitor = s.monitor := rfl
@[simp] theorem State.modLegsOf_refclkGap : (s.modLegsOf g f).refclkGap = s.refclkGap := rfl
@[simp] theorem State.modLegsOf_sets : (s.modLegsOf g f).sets = s.sets := rfl
@[simp] theorem State.modLegsOf_nextId : (s.modLegsOf g f).nextId = s.nextId := rfl
@[simp] theorem State.modLegsOf_sealCount : (s.modLegsOf g f).sealCount = s.sealCount := rfl
@[simp] theorem State.modLegsOf_choices : (s.modLegsOf g f).choices = s.choices := rfl
@[simp] theorem State.modLegsOf_pending : (s.modLegsOf g f).pending = s.pending := rfl
@[simp] theorem State.modLegsOf_port (q : Port) : (s.modLegsOf g f).port q = s.port q := rfl
@[simp] theorem State.modLegsOf_leg (k : Leg) :
    (s.modLegsOf g f).leg k = if (s.leg k).group = g then f (s.leg k) else s.leg k := by cases k <;> rfl
@[simp] theorem State.modLegsOf_group (k : Group) : (s.modLegsOf g f).group k = s.group k := rfl
@[simp] theorem State.modLegsOf_input (k : TripInput) : (s.modLegsOf g f).input k = s.input k := rfl
@[simp] theorem State.modLegsOf_syncInput (k : Group) : (s.modLegsOf g f).syncInput k = s.syncInput k := rfl
@[simp] theorem State.modLegsOf_operating : (s.modLegsOf g f).operating = s.operating := rfl

end modLegsOf

/-! ### `modSync` -/

section modSync
variable (s : State) (g : Group) (f : SyncState → SyncState)

@[simp] theorem State.modSync_condition : (s.modSync g f).condition = s.condition := rfl
@[simp] theorem State.modSync_supervisor : (s.modSync g f).supervisor = s.supervisor := rfl
@[simp] theorem State.modSync_hkoTenths : (s.modSync g f).hkoTenths = s.hkoTenths := rfl
@[simp] theorem State.modSync_hkoMicros : (s.modSync g f).hkoMicros = s.hkoMicros := rfl
@[simp] theorem State.modSync_ports : (s.modSync g f).ports = s.ports := rfl
@[simp] theorem State.modSync_legs : (s.modSync g f).legs = s.legs := rfl
@[simp] theorem State.modSync_groups : (s.modSync g f).groups = s.groups := rfl
@[simp] theorem State.modSync_inputs : (s.modSync g f).inputs = s.inputs := rfl
@[simp] theorem State.modSync_monitor : (s.modSync g f).monitor = s.monitor := rfl
@[simp] theorem State.modSync_refclkGap : (s.modSync g f).refclkGap = s.refclkGap := rfl
@[simp] theorem State.modSync_sets : (s.modSync g f).sets = s.sets := rfl
@[simp] theorem State.modSync_nextId : (s.modSync g f).nextId = s.nextId := rfl
@[simp] theorem State.modSync_sealCount : (s.modSync g f).sealCount = s.sealCount := rfl
@[simp] theorem State.modSync_choices : (s.modSync g f).choices = s.choices := rfl
@[simp] theorem State.modSync_pending : (s.modSync g f).pending = s.pending := rfl
@[simp] theorem State.modSync_port (q : Port) : (s.modSync g f).port q = s.port q := rfl
@[simp] theorem State.modSync_leg (k : Leg) : (s.modSync g f).leg k = s.leg k := rfl
@[simp] theorem State.modSync_group (k : Group) : (s.modSync g f).group k = s.group k := rfl
@[simp] theorem State.modSync_input (k : TripInput) : (s.modSync g f).input k = s.input k := rfl
@[simp] theorem State.modSync_syncInput (k : Group) :
    (s.modSync g f).syncInput k = if k = g then f (s.syncInput k) else s.syncInput k := by cases k <;> rfl
@[simp] theorem State.modSync_operating : (s.modSync g f).operating = s.operating := rfl

end modSync

end Sys2Proof.Machine
end

