-- ==== Sys2Proof/Laws/Checks.lean ====
section
/-! SUPPORT. What the edits of a set stage, said once. -/

namespace Sys2Proof.Machine

theorem mem_of_stagedLeg {es : List Edit} {l : Leg} {r : PatternRecord} (h : stagedLeg es l = some r) :
    .leg l r ∈ es := by
  obtain ⟨e, he, hr⟩ := List.exists_of_findSome?_eq_some h
  rcases e with ⟨k, x⟩ | ⟨k, x⟩
  · by_cases hk : k = l
    · subst hk
      simp only [if_true, Option.some.injEq] at hr
      exact hr ▸ he
    · simp [hk] at hr
  · simp at hr

theorem stagedLeg_eq_none {es : List Edit} {l : Leg} : stagedLeg es l = none ↔ ∀ r, .leg l r ∉ es := by
  constructor
  · intro h r hr
    have := List.findSome?_eq_none_iff.mp h _ hr
    simp at this
  · intro h
    refine List.findSome?_eq_none_iff.mpr fun e he => ?_
    rcases e with ⟨k, x⟩ | ⟨k, x⟩
    · by_cases hk : k = l
      · exact absurd (hk ▸ he) (h x)
      · simp [hk]
    · rfl

theorem mem_of_stagedTiming {es : List Edit} {g : Group} {t : TimingRecord} (h : stagedTiming es g = some t) :
    .group g t ∈ es := by
  obtain ⟨e, he, hr⟩ := List.exists_of_findSome?_eq_some h
  rcases e with ⟨k, x⟩ | ⟨k, x⟩
  · simp at hr
  · by_cases hk : k = g
    · subst hk
      simp only [if_true, Option.some.injEq] at hr
      exact hr ▸ he
    · simp [hk] at hr

theorem stagedTiming_eq_none {es : List Edit} {g : Group} : stagedTiming es g = none ↔ ∀ t, .group g t ∉ es := by
  constructor
  · intro h r hr
    have := List.findSome?_eq_none_iff.mp h _ hr
    simp at this
  · intro h
    refine List.findSome?_eq_none_iff.mpr fun e he => ?_
    rcases e with ⟨k, x⟩ | ⟨k, x⟩
    · rfl
    · by_cases hk : k = g
      · exact absurd (hk ▸ he) (h x)
      · simp [hk]

end Sys2Proof.Machine
end

