-- ==== Sys2Proof/Laws/Interlock.lean ====
section
/-! SUPPORT. What the leg generators do, said once in the words of Safety: a tick, the stop-output behaviour, a forced OFF,
the safe levels and the end of a safe wait. -/

namespace Sys2Proof.Machine

theorem Output.drop_eq (o : Output) : o.drop = inactiveAtOnce o := by
  unfold Output.drop inactiveAtOnce
  split <;> rfl

theorem LegState.dropOutputs_eq (v : LegState) :
    v.dropOutputs = { v with outA := inactiveAtOnce v.outA, outB := inactiveAtOnce v.outB } := by
  simp only [LegState.dropOutputs, Output.drop_eq]

theorem PatternRecord.forcedOff_eq (r : PatternRecord) : r.forcedOff = offRecord r := rfl

theorem LegState.forceOff_eq (tripped : Bool) (v : LegState) : v.forceOff tripped = offLeg tripped v := by
  cases tripped <;> simp [LegState.forceOff, offLeg, LegState.dropOutputs_eq, PatternRecord.forcedOff_eq]

/-- Each leg after a group's stop-output behaviour. -/
theorem State.stopOutputs_leg (s : State) (g : Group) (l : Leg) :
    (s.stopOutputs g).leg l = if (s.leg l).group = g then restLeg (s.group g).stopOutput (s.leg l) else s.leg l := by
  unfold State.stopOutputs restLeg
  split
  · next h => simp [h, LegState.dropOutputs_eq]
  · next h => simp [h]

theorem State.stopOutputs_frame (s : State) (g : Group) :
    s.stopOutputs g = { s with legs := (s.stopOutputs g).legs } := by
  unfold State.stopOutputs
  split <;> rfl

/-- The outputs before the evaluation of a tick: the state kept, the tick's cut gone, the count as R5 says. -/
def advanced (first : Bool) (o : Output) : Output := if first then { o with cut := false } else o.advance

theorem advanced_state (first : Bool) (o : Output) : (advanced first o).state = o.state := by
  unfold advanced Output.advance
  repeat' split
  all_goals rfl

theorem advanced_cut (first : Bool) (o : Output) : (advanced first o).cut = false := by
  unfold advanced Output.advance
  split
  · rfl
  · split
    · rfl
    · next h => simpa using (not_or.mp h).2

theorem advanced_count (first : Bool) (o : Output) (h : o.state ≠ .active) :
    (advanced first o).count = countAt first o := by
  unfold advanced Output.advance countAt Config.countTop
  cases first <;> cases hc : o.cut <;> simp [h]

/-- The evaluation of one output by R6 against the other. -/
theorem engage_eq (first d od : Bool) (gap : Nat) (o other : Output)
    (h : ¬(o.state = .active ∧ other.state = .active)) :
    ((advanced first o).release d).engage d od gap ((advanced first other).release od) =
      tickOutput first d od gap o other := by
  have h1 := advanced_state first o
  have h2 := advanced_state first other
  have h3 := advanced_cut first o
  have h4 := advanced_count first o
  have h5 := advanced_count first other
  rcases hx : advanced first o with ⟨xs, xc, xk⟩
  rcases hy : advanced first other with ⟨ys, yc, yk⟩
  rw [hx] at h1 h3 h4
  rw [hy] at h2 h5
  simp only at h1 h2 h3 h4 h5
  subst h1 h2 h3
  by_cases ha : o.state = .active
  · have hb : other.state ≠ .active := fun e => h ⟨ha, e⟩
    cases d <;> simp [Output.release, Output.engage, tickOutput, countAt, ha]
  · have e1 := h4 ha
    subst e1
    cases d
    · simp [Output.release, Output.engage, tickOutput, ha]
    · cases od
      · by_cases hb : other.state = .active
        · simp [Output.release, Output.engage, tickOutput, ha, hb, countAt]
        · have e2 := h5 hb
          subst e2
          simp [Output.release, Output.engage, tickOutput, ha, hb]
      · simp [Output.release, Output.engage, tickOutput, ha]

/-- Each leg after a tick start of a group: of a leg whose outputs were not both ACTIVE, what R6 gives. -/
theorem LegState.tickStart_eq (first : Bool) (period n : Nat) (v : LegState)
    (h : ¬(v.outA.state = .active ∧ v.outB.state = .active)) :
    v.tickStart first period n = tickLeg first period n v := by
  have h' : ¬(v.outB.state = .active ∧ v.outA.state = .active) := fun e => h ⟨e.2, e.1⟩
  simp only [tickLeg, ← engage_eq first _ _ _ _ _ h, ← engage_eq first _ _ _ _ _ h']
  rfl

theorem State.tickStart_leg (s : State) (g : Group) (first : Bool) (n : Nat) (l : Leg)
    (h : ¬((s.leg l).outA.state = .active ∧ (s.leg l).outB.state = .active)) :
    (s.tickStart g first n).leg l =
      if (s.leg l).group = g then tickLeg first (s.group g).timing.period n (s.leg l) else s.leg l := by
  simp [State.tickStart, LegState.tickStart_eq _ _ _ _ h]

theorem State.tickStart_frame (s : State) (g : Group) (first : Bool) (n : Nat) :
    s.tickStart g first n = { s with legs := (s.tickStart g first n).legs } := rfl

/-- A leg that passes to its safe levels, of which at most one is active. -/
theorem LegState.toSafe_eq (v : LegState) (h : ¬(v.outA.state = .active ∧ v.outB.state = .active))
    (hs : ¬(v.safeA = true ∧ v.safeB = true)) : v.toSafe = safeLeg v := by
  rcases v with ⟨g, r, ⟨sa, ca, ka⟩, ⟨sb, cb, kb⟩, fa, fb, d, w, hd, fl⟩
  simp only at h hs
  by_cases hz : d = 0 <;> cases fa <;> cases fb <;> cases sa <;> cases sb <;>
    simp_all [LegState.toSafe, safeLeg, safeOutput, inactiveAtOnce, Output.drop, Output.engageSafe]

/-- A tick never leaves both outputs of a leg active that were not. -/
theorem tickLeg_apart (first : Bool) (period n : Nat) (v : LegState)
    (h : ¬(v.outA.state = .active ∧ v.outB.state = .active)) :
    ¬((tickLeg first period n v).outA.state = .active ∧ (tickLeg first period n v).outB.state = .active) := by
  simp only [tickLeg]
  generalize demandA v.record period n = dA
  generalize demandB v.record period n = dB
  unfold tickOutput
  cases dA <;> cases dB <;> by_cases ha : v.outA.state = .active <;> by_cases hb : v.outB.state = .active <;>
    simp_all

end Sys2Proof.Machine
end

