-- ==== Sys2Proof/Laws/Ops.lean ====
section
/-! SUPPORT. What each shared operation does, said once: the readings that an update of the ports leaves, the records
raised, the lease table, the cancelled sets, and a command taken and answered. -/

namespace Sys2Proof.Machine

/-! ### Readings that the ports do not touch -/

section ports
variable (s : State) (p : Port) (f : PortState → PortState)

@[simp] theorem State.modPort_holder (i : Item) : (s.modPort p f).holder i = s.holder i := by cases i <;> rfl
@[simp] theorem State.modPort_holds (q : Port) (i : Item) : (s.modPort p f).holds q i = s.holds q i := by
  simp [State.holds]
theorem State.modPort_holds_eq (q : Port) : (s.modPort p f).holds q = s.holds q := by
  funext i; simp
@[simp] theorem State.modPort_holdsAny (q : Port) : (s.modPort p f).holdsAny q = s.holdsAny q := by
  simp [State.holdsAny, State.modPort_holds_eq]
@[simp] theorem State.modPort_heldMask (q : Port) : (s.modPort p f).heldMask q = s.heldMask q := by
  simp [State.heldMask, State.modPort_holds_eq]
@[simp] theorem State.modPort_isSupervisor (q : Port) : (s.modPort p f).isSupervisor q = s.isSupervisor q := rfl
@[simp] theorem State.modPort_poolUsed : (s.modPort p f).poolUsed = s.poolUsed := rfl
@[simp] theorem State.modPort_poolFree : (s.modPort p f).poolFree = s.poolFree := rfl
@[simp] theorem State.modPort_openSetOf (q : Port) : (s.modPort p f).openSetOf q = s.openSetOf q := rfl
@[simp] theorem State.modPort_pendingCount (q : Port) : (s.modPort p f).pendingCount q = s.pendingCount q := rfl
@[simp] theorem State.modPort_doneCount (q : Port) : (s.modPort p f).doneCount q = s.doneCount q := rfl
@[simp] theorem State.modPort_ownSet (q : Port) (id : Nat) : (s.modPort p f).ownSet q id = s.ownSet q id := rfl
@[simp] theorem State.modPort_pendingSetOf (i : Item) : (s.modPort p f).pendingSetOf i = s.pendingSetOf i := rfl
@[simp] theorem State.modPort_pendingIn (g : Group) : (s.modPort p f).pendingIn g = s.pendingIn g := rfl
@[simp] theorem State.modPort_distance (c : ChangeSet) : (s.modPort p f).distance c = s.distance c := rfl
@[simp] theorem State.modPort_tripped (g : Group) : (s.modPort p f).tripped g = s.tripped g := rfl
@[simp] theorem State.modPort_validate (g : Group) (es : List Edit) :
    (s.modPort p f).validate g es = s.validate g es := rfl
@[simp] theorem State.modPort_periodFor (g : Group) (es : List Edit) :
    (s.modPort p f).periodFor g es = s.periodFor g es := rfl
@[simp] theorem State.modPort_openCount (q : Port) : (s.modPort p f).openCount q = s.openCount q := rfl

end ports

/-! ### Records -/

@[simp] theorem PortState.afterRecords_nil (q : PortState) : q.afterRecords [] = q := by
  simp [PortState.afterRecords]

theorem Txn.noteDiscard_noteDiscard (t : Txn) : t.noteDiscard.noteDiscard = t.noteDiscard := by
  rcases t with _ | _ | ⟨r, a⟩ | _
  · rfl
  · rfl
  · cases a <;> rfl
  · rfl

theorem PortState.takeRecord_eq (e : Event) (q : PortState) : q.takeRecord e = q.afterRecords [e] := by
  unfold PortState.takeRecord PortState.afterRecords Config.queueSlots
  by_cases h : 12 ≤ q.queue.length
  · have h0 : 12 - q.queue.length = 0 := by omega
    simp [h, h0]
  · have h1 : ¬(12 - q.queue.length < 1) := by omega
    have h2 : ([e] : List Event).take (12 - q.queue.length) = [e] := List.take_of_length_le (by simp; omega)
    simp [h, h1, h2]

theorem PortState.afterRecords_append (q : PortState) (as bs : List Event) :
    (q.afterRecords as).afterRecords bs = q.afterRecords (as ++ bs) := by
  unfold PortState.afterRecords
  simp only [List.length_append, List.length_take, List.take_append, List.append_assoc, PortState.mk.injEq,
    true_and, and_true]
  have e1 : 12 - (q.queue.length + min (12 - q.queue.length) as.length) = 12 - q.queue.length - as.length := by omega
  refine ⟨?_, ?_, ?_⟩
  · rw [e1]
    by_cases h1 : 12 - q.queue.length < as.length
    · have h2 : 12 - q.queue.length < as.length + bs.length := by omega
      simp [h1, h2, Txn.noteDiscard_noteDiscard]
    · by_cases h3 : 12 - q.queue.length < as.length + bs.length
      · have h4 : 12 - q.queue.length - as.length < bs.length := by omega
        simp [h1, h3, h4]
      · have h4 : ¬(12 - q.queue.length - as.length < bs.length) := by omega
        simp [h1, h3, h4]
  · rw [e1]
  · rw [e1]
    by_cases h1 : 12 - q.queue.length < as.length
    · have h2 : 12 - q.queue.length < as.length + bs.length := by omega
      simp [h1, h2]
    · have h4 : (12 - q.queue.length - as.length < bs.length) = (12 - q.queue.length < as.length + bs.length) := by
        apply propext; omega
      simp [h1, h4]

theorem PortState.afterRecords_cons (q : PortState) (e : Event) (es : List Event) :
    (q.takeRecord e).afterRecords es = q.afterRecords (e :: es) := by
  rw [PortState.takeRecord_eq, PortState.afterRecords_append]; rfl

/-- A record raised to one port reaches that port alone. -/
@[simp] theorem State.raise_port (s : State) (p q : Port) (e : Event) :
    (s.raise p e).port q = (s.port q).afterRecords (if q = p then [e] else []) := by
  by_cases h : q = p <;> simp [State.raise, h, PortState.takeRecord_eq]

/-- A record raised to all three ports reaches each of them. -/
@[simp] theorem State.raiseAll_port (s : State) (q : Port) (e : Event) :
    (s.raiseAll e).port q = (s.port q).afterRecords [e] := by
  simp [State.raiseAll, PortState.takeRecord_eq]

/-- Raising records changes the ports and nothing else. -/
theorem State.raise_frame (s : State) (p : Port) (e : Event) :
    s.raise p e = { s with ports := (s.raise p e).ports } := rfl

theorem State.raiseAll_frame (s : State) (e : Event) : s.raiseAll e = { s with ports := (s.raiseAll e).ports } := rfl

theorem State.foldl_raise_frame {α : Type} (dest : α → Port) (ev : α → Event) (xs : List α) (s : State) :
    xs.foldl (fun t x => t.raise (dest x) (ev x)) s =
      { s with ports := (xs.foldl (fun t x => t.raise (dest x) (ev x)) s).ports } := by
  induction xs generalizing s with
  | nil => rfl
  | cons x xs ih => rw [List.foldl_cons, ih]; rfl

/-- Records raised one after another: each port receives, in order, those that name it. -/
theorem State.foldl_raise_port {α : Type} (dest : α → Port) (ev : α → Event) (xs : List α) (s : State) (q : Port) :
    (xs.foldl (fun t x => t.raise (dest x) (ev x)) s).port q =
      (s.port q).afterRecords ((xs.filter fun x => decide (dest x = q)).map ev) := by
  induction xs generalizing s with
  | nil => simp
  | cons x xs ih =>
    rw [List.foldl_cons, ih, State.raise_port, PortState.afterRecords_append]
    by_cases h : q = dest x
    · simp [h]
    · have h' : ¬ dest x = q := fun e => h e.symm
      simp [h, h']

theorem State.raiseList_frame (s : State) (p : Port) (es : List Event) :
    s.raiseList p es = { s with ports := (s.raiseList p es).ports } :=
  State.foldl_raise_frame (fun _ => p) (fun e => e) es s

/-- Records raised to one port in order. -/
@[simp] theorem State.raiseList_port (s : State) (p q : Port) (es : List Event) :
    (s.raiseList p es).port q = (s.port q).afterRecords (if q = p then es else []) := by
  rw [State.raiseList, State.foldl_raise_port (fun _ => p) (fun e => e)]
  by_cases h : q = p
  · simp [h]
  · have h' : ¬ p = q := fun e => h e.symm
    simp [h, h']

theorem State.raiseToSupervisor_frame (s : State) (p : Port) (es : List Event) :
    s.raiseToSupervisor p es = { s with ports := (s.raiseToSupervisor p es).ports } := by
  unfold State.raiseToSupervisor
  split
  · split
    · rfl
    · exact State.raiseList_frame s _ es
  · rfl

/-- Records for the supervisor where it is a port other than `p`. -/
@[simp] theorem State.raiseToSupervisor_port (s : State) (p q : Port) (es : List Event) :
    (s.raiseToSupervisor p es).port q = (s.port q).afterRecords (toSupervisor s p es q) := by
  unfold State.raiseToSupervisor toSupervisor
  split
  · next k hk =>
    by_cases h : k = p
    · subst h
      by_cases h2 : q = k
      · simp [h2]
      · have : ¬ k = q := fun e => h2 e.symm
        simp [hk, this]
    · by_cases h2 : q = k
      · subst h2; simp [h, hk]
      · have : ¬ k = q := fun e => h2 e.symm
        simp [h, hk, this, h2]
  · next hk => simp [hk]

/-! ### The lease table -/

/-- Setting holders changes the holder of every picked item, and nothing else of the table. -/
@[simp] theorem State.setHolders_holder (s : State) (pick : Item → Bool) (h : Option Port) (i : Item) :
    (s.setHolders pick h).holder i = if pick i then h else s.holder i := by
  cases i with
  | leg l => simp only [State.holder, State.setHolders]; by_cases hp : pick (.leg l) <;> simp [hp]
  | group g => simp only [State.holder, State.setHolders]; by_cases hp : pick (.group g) <;> simp [hp]

theorem State.setHolders_frame (s : State) (pick : Item → Bool) (h : Option Port) :
    s.setHolders pick h = { s with
      legs := s.legs.map fun l v => { v with holder := (s.setHolders pick h).holder (.leg l) }
      groups := s.groups.map fun g v => { v with holder := (s.setHolders pick h).holder (.group g) } } := by
  simp only [State.setHolders_holder]
  unfold State.setHolders State.mapGroups State.mapLegs
  simp only [State.mk.injEq, true_and, and_true]
  constructor
  · apply PerLeg.ext_get; intro k; simp only [PerLeg.get_map, State.legs_get]
    by_cases hp : pick (.leg k) <;> simp [hp, State.holder]
  · apply PerGroup.ext_get; intro k; simp only [PerGroup.get_map, State.groups_get]
    by_cases hp : pick (.group k) <;> simp [hp, State.holder]

theorem State.startTimer_frame (s : State) (p : Port) : s.startTimer p = { s with ports := (s.startTimer p).ports } := by
  unfold State.startTimer; split <;> rfl

@[simp] theorem State.startTimer_port (s : State) (p q : Port) :
    (s.startTimer p).port q =
      if q = p ∧ s.holdsAny p = true ∧ (s.port p).timeout ≠ 0 ∧ (s.port p).timer = none then
        { s.port q with timer := some (s.port q).timeout }
      else s.port q := by
  unfold State.startTimer
  by_cases h : q = p
  · subst h
    by_cases h1 : s.holdsAny q = true <;> by_cases h2 : (s.port q).timeout = 0 <;>
      cases h3 : (s.port q).timer <;> simp [h1, h2]
  · simp only [h, false_and, if_false]; split <;> simp [h]

theorem State.stopTimerIfIdle_frame (s : State) (p : Port) :
    s.stopTimerIfIdle p = { s with ports := (s.stopTimerIfIdle p).ports } := by
  unfold State.stopTimerIfIdle; split <;> rfl

@[simp] theorem State.stopTimerIfIdle_port (s : State) (p q : Port) :
    (s.stopTimerIfIdle p).port q =
      if q = p ∧ s.holdsAny p = false then { s.port q with timer := none } else s.port q := by
  unfold State.stopTimerIfIdle
  by_cases h : q = p
  · subst h; by_cases h1 : s.holdsAny q = true <;> simp [h1]
  · simp only [h, false_and, if_false]; split <;> simp [h]

/-! ### Sets -/

theorem ChangeSet.finish_cancelled (why : CancelReason) (c : ChangeSet) :
    c.finish (.cancelled why) = cancelledAs why c := by
  rcases c with ⟨i, o, g, b⟩; cases b <;> rfl

theorem cancelledAs_of_not_pending (why : CancelReason) (c : ChangeSet) (h : c.isPending = false) :
    cancelledAs why c = c := by
  rcases c with ⟨i, o, g, b⟩
  cases b with
  | opened es => rfl
  | pending es t q => simp [ChangeSet.isPending] at h
  | done t o => rfl

/-- Cancelling changes the picked PENDING sets and sends their owners the records, in seal order. -/
theorem State.cancelSets_frame (s : State) (pick : ChangeSet → Bool) (why : CancelReason) :
    s.cancelSets pick why = { s with
      ports := (s.cancelSets pick why).ports
      sets := s.sets.map fun c => if pick c then cancelledAs why c else c } := by
  unfold State.cancelSets
  rw [State.foldl_raise_frame (fun c : ChangeSet => c.owner) (fun c => .setCancelled c.id why)]
  simp only [State.mk.injEq, true_and, and_true]
  apply List.map_congr_left
  intro c _
  cases h : c.isPending <;> cases h2 : pick c <;> simp [ChangeSet.finish_cancelled, cancelledAs_of_not_pending, h]

@[simp] theorem State.cancelSets_port (s : State) (pick : ChangeSet → Bool) (why : CancelReason) (q : Port) :
    (s.cancelSets pick why).port q = (s.port q).afterRecords (cancelRecords s pick why q) := by
  unfold State.cancelSets
  rw [State.foldl_raise_port (fun c : ChangeSet => c.owner) (fun c => .setCancelled c.id why)]
  simp only [cancelRecords, List.filter_filter, State.port_mk, State.ports_get]
  congr 2
  apply List.filter_congr
  intro c _
  cases c.isPending <;> cases pick c <;> simp

@[simp] theorem State.cancelSets_sets (s : State) (pick : ChangeSet → Bool) (why : CancelReason) :
    (s.cancelSets pick why).sets = s.sets.map fun c => if pick c then cancelledAs why c else c := by
  rw [State.cancelSets_frame]

/-! ### A command taken and answered -/

/-- The state in which the owner takes a command of port `p`. -/
theorem State.taking_port (s : State) (p q : Port) (c : Instr) :
    (s.taking p c).port q =
      if q = p then { s.port q with line := .holding ((encodeRequest c).getD []), timer := (s.port q).restarted }
      else s.port q := by
  unfold State.taking State.received
  by_cases h : q = p <;> simp [h, PortState.restarted]

theorem State.taking_frame (s : State) (p : Port) (c : Instr) :
    s.taking p c = { s with ports := (s.taking p c).ports } := rfl

/-- A port that can take a command is ready. -/
theorem State.ready_of_canTake {s : State} {p : Port} (h : CanTake s p) : s.ready p = true := by
  simp [State.ready, State.operating, h.1, h.2]

theorem State.canTake_iff (s : State) (p : Port) : CanTake s p ↔ s.ready p = true := by
  simp [State.ready, State.operating, CanTake]

/-- A command is taken at its check byte where the port can take one. -/
theorem serve_of_canTake {s : State} {p : Port} (h : CanTake s p) (c : Instr) (body : State → Reply) :
    serve p c body s = .next ((body (s.taking p c)).answer p) := by
  simp [serve, State.ready_of_canTake h]

theorem serve_of_not_canTake {s : State} {p : Port} (h : ¬CanTake s p) (c : Instr) (body : State → Reply) :
    serve p c body s = .next s := by
  have : s.ready p = false := by
    cases hr : s.ready p
    · rfl
    · exact absurd ((State.canTake_iff s p).mpr hr) h
  simp [serve, this]

/-- What answering leaves of each port: the answering port is in RESPONSE. -/
theorem Reply.answer_port (r : Reply) (p q : Port) :
    (r.answer p).port q = if q = p then { r.state.port q with txn := .response r.resp r.after } else r.state.port q := by
  unfold Reply.answer; simp

theorem Reply.answer_frame (r : Reply) (p : Port) : r.answer p = { r.state with ports := (r.answer p).ports } := rfl

/-- A command whose owner leaves the state as it took it has no effect but its own transaction. -/
theorem transactionOnly_of_same {s : State} {p : Port} (c : Instr) (resp : Response) (after : After) :
    TransactionOnly p s ((Reply.mk (s.taking p c) resp after).answer p) := by
  refine ⟨rfl, ?_, ?_⟩
  · intro q hq
    simp [Reply.answer_port, hq, State.taking_port, noRecords]
  · simp [Reply.answer_port, State.taking_port, noRecords]

/-- The answer stands in the port. -/
theorem answered_answer (r : Reply) (p : Port) : Answered (r.answer p) p r.resp.result r.resp.data r.after := by
  simp [Answered, Reply.answer_port]

/-- A command that its owner refuses is refused. -/
theorem refuses_of {s : State} {p : Port} {c : Instr} {body : State → Reply} {r : Result} {data : List Byte}
    (h : CanTake s p) (hc : exec c s = serve p c body s)
    (hb : body (s.taking p c) = refuse (s.taking p c) r data) : Refuses c p s r data := by
  refine ⟨(body (s.taking p c)).answer p, ⟨?_, ?_⟩, ?_⟩
  · exact (hc.trans (serve_of_canTake h c body))
  · rw [hb]; exact answered_answer _ p
  · rw [hb]; exact transactionOnly_of_same c _ _

/-- A command whose owner answers from the state as it is changes nothing but its own transaction. -/
theorem answers_of_same {s : State} {p : Port} {c : Instr} {body : State → Reply} {resp : Response} {after : After}
    (h : CanTake s p) (hc : exec c s = serve p c body s)
    (hb : body (s.taking p c) = ⟨s.taking p c, resp, after⟩) :
    ∃ t, Answers c p s t resp.result resp.data after ∧ TransactionOnly p s t := by
  refine ⟨(body (s.taking p c)).answer p, ⟨?_, ?_⟩, ?_⟩
  · exact (hc.trans (serve_of_canTake h c body))
  · rw [hb]; exact answered_answer _ p
  · rw [hb]; exact transactionOnly_of_same c _ _

/-- A refused command is left as it is. -/
@[simp] theorem Reply.leaveDue_of_refused {r : Reply} (h : r.resp.result ≠ .ok) (follows : Bool) (before : State)
    (p : Port) : r.leaveDue follows before p = r := by
  simp [Reply.leaveDue, h]

@[simp] theorem Reply.leaveDue_resp (r : Reply) (follows : Bool) (before : State) (p : Port) :
    (r.leaveDue follows before p).resp = r.resp := by
  unfold Reply.leaveDue; split <;> rfl

@[simp] theorem Reply.leaveDue_after (r : Reply) (follows : Bool) (before : State) (p : Port) :
    (r.leaveDue follows before p).after = r.after := by
  unfold Reply.leaveDue; split <;> rfl

/-- All that an expiry left due changes: the timer of its port. -/
theorem Reply.leaveDue_port (r : Reply) (follows : Bool) (before : State) (p q : Port) :
    (r.leaveDue follows before p).state.port q =
      if q = p ∧ r.resp.result = .ok ∧ (before.port p).timer = some 0 ∧ follows = true then
        { r.state.port q with timer := some 0 }
      else r.state.port q := by
  unfold Reply.leaveDue
  by_cases h : r.resp.result = .ok ∧ (before.port p).timer = some 0 ∧ follows = true <;> by_cases hq : q = p <;>
    simp [h, hq]

theorem Reply.leaveDue_frame (r : Reply) (follows : Bool) (before : State) (p : Port) :
    (r.leaveDue follows before p).state = { r.state with ports := (r.leaveDue follows before p).state.ports } := by
  unfold Reply.leaveDue; split <;> rfl

/-- A STAGE or a SEAL taken where the port can take one. -/
theorem serveSetWork_of_canTake {s : State} {p : Port} (h : CanTake s p) (c : Instr) (body : State → Reply) :
    serveSetWork p c body s =
      .next (((body (s.taking p c)).leaveDue (Config.expiryFollows p s.choices) s p).answer p) :=
  serve_of_canTake h c _

/-- A STAGE or a SEAL that its owner refuses is refused. -/
theorem refuses_of_setWork {s : State} {p : Port} {c : Instr} {body : State → Reply} {r : Result} {data : List Byte}
    (h : CanTake s p) (hc : exec c s = serveSetWork p c body s)
    (hb : body (s.taking p c) = refuse (s.taking p c) r data) (hr : r ≠ .ok) : Refuses c p s r data :=
  refuses_of h hc (by rw [hb]; exact Reply.leaveDue_of_refused hr _ _ _)

/-- The port of a STAGE or a SEAL that its owner accepts, leaving the ports as it took them. -/
theorem served_setWork {s : State} {p : Port} (c : Instr) (r : Reply) (hr : r.resp.result = .ok)
    (hp : ∀ q, r.state.port q = (s.taking p c).port q) :
    Served p noRecords (setWorkTimer p s) s ((r.leaveDue (Config.expiryFollows p s.choices) s p).answer p) := by
  constructor
  · intro q hq
    simp [Reply.answer_port, Reply.leaveDue_port, hp, hq, State.taking_port, noRecords]
  · by_cases h : (s.port p).timer = some 0 ∧ Config.expiryFollows p s.choices = true <;>
      simp [Reply.answer_port, Reply.leaveDue_port, hp, hr, h, State.taking_port, noRecords, setWorkTimer]

/-! ### Readings that raising records, the timers and cancelling do not touch -/

@[simp] theorem State.raise_leg (s : State) (p : Port) (e : Event) (l : Leg) : (s.raise p e).leg l = s.leg l := by
  rw [State.raise_frame]; rfl
@[simp] theorem State.raise_group (s : State) (p : Port) (e : Event) (g : Group) :
    (s.raise p e).group g = s.group g := by
  rw [State.raise_frame]; rfl
@[simp] theorem State.raise_input (s : State) (p : Port) (e : Event) (i : TripInput) :
    (s.raise p e).input i = s.input i := by
  rw [State.raise_frame]; rfl
@[simp] theorem State.raise_holder (s : State) (p : Port) (e : Event) (i : Item) :
    (s.raise p e).holder i = s.holder i := by
  rw [State.raise_frame]; cases i <;> rfl
@[simp] theorem State.raise_supervisor (s : State) (p : Port) (e : Event) :
    (s.raise p e).supervisor = s.supervisor := by
  rw [State.raise_frame]
@[simp] theorem State.raise_monitor (s : State) (p : Port) (e : Event) : (s.raise p e).monitor = s.monitor := by
  rw [State.raise_frame]
@[simp] theorem State.raise_condition (s : State) (p : Port) (e : Event) : (s.raise p e).condition = s.condition := by
  rw [State.raise_frame]
@[simp] theorem State.raise_sets (s : State) (p : Port) (e : Event) : (s.raise p e).sets = s.sets := by
  rw [State.raise_frame]

@[simp] theorem State.raiseAll_leg (s : State) (e : Event) (l : Leg) : (s.raiseAll e).leg l = s.leg l := by
  rw [State.raiseAll_frame]; rfl
@[simp] theorem State.raiseAll_group (s : State) (e : Event) (g : Group) : (s.raiseAll e).group g = s.group g := by
  rw [State.raiseAll_frame]; rfl
@[simp] theorem State.raiseAll_input (s : State) (e : Event) (i : TripInput) : (s.raiseAll e).input i = s.input i := by
  rw [State.raiseAll_frame]; rfl
@[simp] theorem State.raiseAll_holder (s : State) (e : Event) (i : Item) : (s.raiseAll e).holder i = s.holder i := by
  rw [State.raiseAll_frame]; cases i <;> rfl
@[simp] theorem State.raiseAll_supervisor (s : State) (e : Event) : (s.raiseAll e).supervisor = s.supervisor := by
  rw [State.raiseAll_frame]
@[simp] theorem State.raiseAll_monitor (s : State) (e : Event) : (s.raiseAll e).monitor = s.monitor := by
  rw [State.raiseAll_frame]
@[simp] theorem State.raiseAll_condition (s : State) (e : Event) : (s.raiseAll e).condition = s.condition := by
  rw [State.raiseAll_frame]
@[simp] theorem State.raiseAll_sets (s : State) (e : Event) : (s.raiseAll e).sets = s.sets := by
  rw [State.raiseAll_frame]

@[simp] theorem State.raiseList_leg (s : State) (p : Port) (es : List Event) (l : Leg) :
    (s.raiseList p es).leg l = s.leg l := by
  rw [State.raiseList_frame]; rfl
@[simp] theorem State.raiseList_group (s : State) (p : Port) (es : List Event) (g : Group) :
    (s.raiseList p es).group g = s.group g := by
  rw [State.raiseList_frame]; rfl
@[simp] theorem State.raiseList_input (s : State) (p : Port) (es : List Event) (i : TripInput) :
    (s.raiseList p es).input i = s.input i := by
  rw [State.raiseList_frame]; rfl
@[simp] theorem State.raiseList_holder (s : State) (p : Port) (es : List Event) (i : Item) :
    (s.raiseList p es).holder i = s.holder i := by
  rw [State.raiseList_frame]; cases i <;> rfl
@[simp] theorem State.raiseList_supervisor (s : State) (p : Port) (es : List Event) :
    (s.raiseList p es).supervisor = s.supervisor := by
  rw [State.raiseList_frame]
@[simp] theorem State.raiseList_monitor (s : State) (p : Port) (es : List Event) :
    (s.raiseList p es).monitor = s.monitor := by
  rw [State.raiseList_frame]
@[simp] theorem State.raiseList_condition (s : State) (p : Port) (es : List Event) :
    (s.raiseList p es).condition = s.condition := by
  rw [State.raiseList_frame]
@[simp] theorem State.raiseList_sets (s : State) (p : Port) (es : List Event) : (s.raiseList p es).sets = s.sets := by
  rw [State.raiseList_frame]

@[simp] theorem State.raiseToSupervisor_leg (s : State) (p : Port) (es : List Event) (l : Leg) :
    (s.raiseToSupervisor p es).leg l = s.leg l := by
  rw [State.raiseToSupervisor_frame]; rfl
@[simp] theorem State.raiseToSupervisor_group (s : State) (p : Port) (es : List Event) (g : Group) :
    (s.raiseToSupervisor p es).group g = s.group g := by
  rw [State.raiseToSupervisor_frame]; rfl
@[simp] theorem State.raiseToSupervisor_input (s : State) (p : Port) (es : List Event) (i : TripInput) :
    (s.raiseToSupervisor p es).input i = s.input i := by
  rw [State.raiseToSupervisor_frame]; rfl
@[simp] theorem State.raiseToSupervisor_holder (s : State) (p : Port) (es : List Event) (i : Item) :
    (s.raiseToSupervisor p es).holder i = s.holder i := by
  rw [State.raiseToSupervisor_frame]; cases i <;> rfl
@[simp] theorem State.raiseToSupervisor_supervisor (s : State) (p : Port) (es : List Event) :
    (s.raiseToSupervisor p es).supervisor = s.supervisor := by
  rw [State.raiseToSupervisor_frame]
@[simp] theorem State.raiseToSupervisor_monitor (s : State) (p : Port) (es : List Event) :
    (s.raiseToSupervisor p es).monitor = s.monitor := by
  rw [State.raiseToSupervisor_frame]
@[simp] theorem State.raiseToSupervisor_condition (s : State) (p : Port) (es : List Event) :
    (s.raiseToSupervisor p es).condition = s.condition := by
  rw [State.raiseToSupervisor_frame]
@[simp] theorem State.raiseToSupervisor_sets (s : State) (p : Port) (es : List Event) :
    (s.raiseToSupervisor p es).sets = s.sets := by
  rw [State.raiseToSupervisor_frame]

@[simp] theorem State.startTimer_leg (s : State) (p : Port) (l : Leg) : (s.startTimer p).leg l = s.leg l := by
  rw [State.startTimer_frame]; rfl
@[simp] theorem State.startTimer_group (s : State) (p : Port) (g : Group) : (s.startTimer p).group g = s.group g := by
  rw [State.startTimer_frame]; rfl
@[simp] theorem State.startTimer_input (s : State) (p : Port) (i : TripInput) :
    (s.startTimer p).input i = s.input i := by
  rw [State.startTimer_frame]; rfl
@[simp] theorem State.startTimer_holder (s : State) (p : Port) (i : Item) : (s.startTimer p).holder i = s.holder i := by
  rw [State.startTimer_frame]; cases i <;> rfl
@[simp] theorem State.startTimer_supervisor (s : State) (p : Port) : (s.startTimer p).supervisor = s.supervisor := by
  rw [State.startTimer_frame]
@[simp] theorem State.startTimer_monitor (s : State) (p : Port) : (s.startTimer p).monitor = s.monitor := by
  rw [State.startTimer_frame]
@[simp] theorem State.startTimer_condition (s : State) (p : Port) : (s.startTimer p).condition = s.condition := by
  rw [State.startTimer_frame]
@[simp] theorem State.startTimer_sets (s : State) (p : Port) : (s.startTimer p).sets = s.sets := by
  rw [State.startTimer_frame]

@[simp] theorem State.stopTimerIfIdle_leg (s : State) (p : Port) (l : Leg) : (s.stopTimerIfIdle p).leg l = s.leg l := by
  rw [State.stopTimerIfIdle_frame]; rfl
@[simp] theorem State.stopTimerIfIdle_group (s : State) (p : Port) (g : Group) :
    (s.stopTimerIfIdle p).group g = s.group g := by
  rw [State.stopTimerIfIdle_frame]; rfl
@[simp] theorem State.stopTimerIfIdle_input (s : State) (p : Port) (i : TripInput) :
    (s.stopTimerIfIdle p).input i = s.input i := by
  rw [State.stopTimerIfIdle_frame]; rfl
@[simp] theorem State.stopTimerIfIdle_holder (s : State) (p : Port) (i : Item) :
    (s.stopTimerIfIdle p).holder i = s.holder i := by
  rw [State.stopTimerIfIdle_frame]; cases i <;> rfl
@[simp] theorem State.stopTimerIfIdle_supervisor (s : State) (p : Port) :
    (s.stopTimerIfIdle p).supervisor = s.supervisor := by
  rw [State.stopTimerIfIdle_frame]
@[simp] theorem State.stopTimerIfIdle_monitor (s : State) (p : Port) : (s.stopTimerIfIdle p).monitor = s.monitor := by
  rw [State.stopTimerIfIdle_frame]
@[simp] theorem State.stopTimerIfIdle_condition (s : State) (p : Port) :
    (s.stopTimerIfIdle p).condition = s.condition := by
  rw [State.stopTimerIfIdle_frame]
@[simp] theorem State.stopTimerIfIdle_sets (s : State) (p : Port) : (s.stopTimerIfIdle p).sets = s.sets := by
  rw [State.stopTimerIfIdle_frame]

@[simp] theorem State.cancelSets_leg (s : State) (pick : ChangeSet → Bool) (why : CancelReason) (l : Leg) :
    (s.cancelSets pick why).leg l = s.leg l := by
  rw [State.cancelSets_frame]; rfl
@[simp] theorem State.cancelSets_group (s : State) (pick : ChangeSet → Bool) (why : CancelReason) (g : Group) :
    (s.cancelSets pick why).group g = s.group g := by
  rw [State.cancelSets_frame]; rfl
@[simp] theorem State.cancelSets_input (s : State) (pick : ChangeSet → Bool) (why : CancelReason) (i : TripInput) :
    (s.cancelSets pick why).input i = s.input i := by
  rw [State.cancelSets_frame]; rfl
@[simp] theorem State.cancelSets_holder (s : State) (pick : ChangeSet → Bool) (why : CancelReason) (i : Item) :
    (s.cancelSets pick why).holder i = s.holder i := by
  rw [State.cancelSets_frame]; cases i <;> rfl
@[simp] theorem State.cancelSets_supervisor (s : State) (pick : ChangeSet → Bool) (why : CancelReason) :
    (s.cancelSets pick why).supervisor = s.supervisor := by
  rw [State.cancelSets_frame]
@[simp] theorem State.cancelSets_monitor (s : State) (pick : ChangeSet → Bool) (why : CancelReason) :
    (s.cancelSets pick why).monitor = s.monitor := by
  rw [State.cancelSets_frame]
@[simp] theorem State.cancelSets_condition (s : State) (pick : ChangeSet → Bool) (why : CancelReason) :
    (s.cancelSets pick why).condition = s.condition := by
  rw [State.cancelSets_frame]

/-! ### Events -/

section events
variable {s : State} (f : State → State)

theorem inOperation_of_operating (h : s.condition = .operating) : inOperation f s = .next (f s) := by
  simp [inOperation, State.operating, h]

theorem inOperation_of_not_operating (h : s.condition ≠ .operating) : inOperation f s = .next s := by
  simp [inOperation, State.operating, h]

/-- A moment at which the trip inputs are sampled, and one between two samples. -/
theorem atSample_of_sample {f : State → State} {s : State} (h : s.hkoTenths = 0) : atSample f s = f s := if_pos h

theorem atSample_of_between {f : State → State} {s : State} (h : s.hkoTenths ≠ 0) : atSample f s = s := if_neg h

theorem onRefclk_of_operating (h : s.condition = .operating) : onRefclk f s = .next (f (clocked s)) :=
  inOperation_of_operating _ h

theorem onRefclk_of_not_operating (h : s.condition ≠ .operating) : onRefclk f s = .next s :=
  inOperation_of_not_operating _ h

/-- Outside OPERATING the release of SSx changes the pin and drops the bits of an incomplete byte. -/
theorem State.releaseSelect_of_not_operating (h : s.condition ≠ .operating) (p : Port) (whole : Bool) :
    s.releaseSelect p whole = s.modPort p PortState.release := by
  simp [State.releaseSelect, State.operating, h]

end events

end Sys2Proof.Machine
end

