-- ==== Sys2Proof/Laws/Frames.lean ====
section
/-! SUPPORT. What entering STOPPED, writing a set's edits and taking a due set do, said once. -/

namespace Sys2Proof.Machine

theorem State.enterStopped_group (s : State) (g h : Group) (why : GroupReason) :
    (s.enterStopped g why).group h =
      if h = g then { s.group h with run := .stopped, tick := 0, division := 0 } else s.group h := by
  unfold State.enterStopped
  rw [State.raiseAll_group, State.stopOutputs_frame]
  exact State.modGroup_group s g _ h

theorem State.enterStopped_leg (s : State) (g : Group) (why : GroupReason) (l : Leg) :
    (s.enterStopped g why).leg l =
      if (s.leg l).group = g then restLeg (s.group g).stopOutput (s.leg l) else s.leg l := by
  unfold State.enterStopped
  rw [State.raiseAll_leg, State.stopOutputs_leg]
  simp

theorem State.enterStopped_port (s : State) (g : Group) (why : GroupReason) (q : Port) :
    (s.enterStopped g why).port q = (s.port q).afterRecords [.groupState g why (s.group g).fn] := by
  unfold State.enterStopped
  rw [State.raiseAll_port, State.stopOutputs_frame]
  rfl

theorem State.enterStopped_frame (s : State) (g : Group) (why : GroupReason) :
    s.enterStopped g why = { s with
      ports := (s.enterStopped g why).ports
      legs := (s.enterStopped g why).legs
      groups := (s.enterStopped g why).groups } := by
  unfold State.enterStopped
  rw [State.raiseAll_frame, State.stopOutputs_frame]
  rfl

/-- A group that enters STOPPED. -/
theorem State.enterStopped_stops (s : State) (g : Group) (why : GroupReason) : Stops g s (s.enterStopped g why) := by
  constructor
  · rw [State.enterStopped_group]; simp
  · intro h hg
    rw [State.enterStopped_group]; simp [hg]
  · exact fun l => State.enterStopped_leg s g why l
  · exact State.enterStopped_frame s g why

theorem State.writeEdits_leg (s : State) (g : Group) (es : List Edit) (l : Leg) :
    (s.writeEdits g es).leg l = { s.leg l with record := s.recordFor es l } := by
  unfold State.writeEdits State.recordFor
  simp only [State.modGroup_leg, State.mapLegs_leg]
  cases stagedLeg es l <;> rfl

theorem State.writeEdits_group (s : State) (g h : Group) (es : List Edit) :
    (s.writeEdits g es).group h =
      match if h = g then stagedTiming es g else none with
      | some t => { s.group h with timing := t, remaining := t.budget }
      | none => s.group h := by
  unfold State.writeEdits
  by_cases e : h = g
  · subst e
    cases stagedTiming es h <;> simp
  · simp [e]

theorem State.writeEdits_frame (s : State) (g : Group) (es : List Edit) :
    s.writeEdits g es =
      { s with legs := (s.writeEdits g es).legs, groups := (s.writeEdits g es).groups } := rfl

/-- Taking a due set changes ports, legs, groups and sets alone. -/
theorem State.takeDueSet_frame (g : Group) (f : Frame) (s : State) (c : ChangeSet) :
    State.takeDueSet g f s c = { s with
      ports := (State.takeDueSet g f s c).ports
      legs := (State.takeDueSet g f s c).legs
      groups := (State.takeDueSet g f s c).groups
      sets := (State.takeDueSet g f s c).sets } := by
  unfold State.takeDueSet
  split <;> rfl

/-- Taking a due set rewrites that set alone. -/
theorem State.takeDueSet_sets (g : Group) (f : Frame) (s : State) (c : ChangeSet) :
    (State.takeDueSet g f s c).sets = s.sets.map fun k =>
      if k.id = c.id then
        k.finish (match s.validate g c.edits with
          | none => .applied f
          | some (why, l) => .failed why l f)
      else k := by
  unfold State.takeDueSet
  split <;> next h => simp only [State.raise_sets, h]; rfl

/-- Taking a due set writes its edits if it passes, and no record or timing otherwise. -/
theorem State.takeDueSet_leg (g : Group) (f : Frame) (s : State) (c : ChangeSet) (l : Leg) :
    (State.takeDueSet g f s c).leg l =
      if s.validate g c.edits = none then { s.leg l with record := s.recordFor c.edits l } else s.leg l := by
  unfold State.takeDueSet
  split <;> next h =>
    simp only [State.raise_leg, h]
    first
    | exact State.writeEdits_leg s g c.edits l
    | rfl

end Sys2Proof.Machine
end

