-- ==== Sys2Proof/Laws/Operands.lean ====
section
/-! SUPPORT. The argument forms: the byte that names a thing is read as that thing, and a byte out of range as none. -/

namespace Sys2Proof.Machine

theorem portArg_eq_some {b : Byte} {p : Port} : portArg b = some p ↔ b.toNat = portNum p := by
  constructor
  · intro h
    unfold portArg at h
    split at h <;> simp_all
    all_goals (subst h; rfl)
  · intro h
    cases p <;> (simp [portArg, portNum] at *; simp [h])

theorem portArg_eq_none {b : Byte} : portArg b = none ↔ 2 < b.toNat := by
  unfold portArg
  split
  all_goals simp_all
  all_goals omega

theorem groupArg_eq_some {b : Byte} {g : Group} : groupArg b = some g ↔ b.toNat = groupNum g := by
  constructor
  · intro h
    unfold groupArg at h
    split at h <;> simp_all
    all_goals (subst h; rfl)
  · intro h
    cases g <;> (simp [groupArg, groupNum] at *; simp [h])

theorem groupArg_eq_none {b : Byte} : groupArg b = none ↔ 1 < b.toNat := by
  unfold groupArg
  split
  all_goals simp_all
  all_goals omega

theorem legArg_eq_some {b : Byte} {l : Leg} : legArg b = some l ↔ b.toNat = legNum l := by
  constructor
  · intro h
    unfold legArg at h
    split at h <;> simp_all
    all_goals (subst h; rfl)
  · intro h
    cases l <;> (simp [legArg, legNum] at *; simp [h])

theorem legArg_eq_none {b : Byte} : legArg b = none ↔ 5 < b.toNat := by
  unfold legArg
  split
  all_goals simp_all
  all_goals omega

theorem inputArg_eq_some {b : Byte} {i : TripInput} : inputArg b = some i ↔ b.toNat = inputNum i := by
  constructor
  · intro h
    unfold inputArg at h
    split at h <;> simp_all
    all_goals (subst h; rfl)
  · intro h
    cases i <;> (simp [inputArg, inputNum] at *; simp [h])

theorem inputArg_eq_none {b : Byte} : inputArg b = none ↔ 1 < b.toNat := by
  unfold inputArg
  split
  all_goals simp_all
  all_goals omega

theorem Item.num_injective {i j : Item} (h : i.num = j.num) : i = j := by
  rcases i with l | g <;> rcases j with k | k
  · cases l <;> cases k <;> simp [Item.num, legNum] at *
  · cases l <;> cases k <;> simp [Item.num, legNum, groupNum] at *
  · cases g <;> cases k <;> simp [Item.num, legNum, groupNum] at *
  · cases g <;> cases k <;> simp [Item.num, groupNum] at *

theorem itemArg_of_num {b : Byte} {i : Item} (h : b.toNat = i.num) : itemArg b = some i := by
  rcases i with l | g
  · cases l <;> (simp [itemArg, Item.num, legNum, legArg] at *; simp [h])
  · cases g <;> (simp [itemArg, Item.num, groupNum] at *; simp [h])

theorem itemArg_eq_none {b : Byte} (h : 7 < b.toNat) : itemArg b = none := by
  unfold itemArg
  split
  · omega
  · omega
  · simp [legArg_eq_none.mpr (by omega : 5 < b.toNat)]

theorem flagArg_eq_none {b : Byte} : flagArg b = none ↔ 1 < b.toNat := by
  unfold flagArg
  split
  all_goals simp_all
  all_goals omega

/-! ### Searches -/

theorem find?_of_unique {α : Type} (f : α → Bool) (xs : List α) (a : α) (ha : a ∈ xs) (hf : f a = true)
    (hu : ∀ b ∈ xs, f b = true → b = a) : xs.find? f = some a := by
  induction xs with
  | nil => simp at ha
  | cons x xs ih =>
    by_cases hx : f x = true
    · have := hu x (by simp) hx
      simp [this, hf]
    · simp only [Bool.not_eq_true] at hx
      rw [List.find?_cons_of_neg (by simp [hx])]
      apply ih
      · rcases List.mem_cons.mp ha with rfl | h
        · simp [hx] at hf
        · exact h
      · intro b hb
        exact hu b (by simp [hb])

theorem allItems_ascending : allItems.Pairwise (fun a b => a.num < b.num) := by decide

/-- The search over the items names the lowest item that passes. -/
theorem find?_allItems (f : Item → Bool) (i : Item) (hf : f i = true) (hl : ∀ j, j.num < i.num → f j = false) :
    allItems.find? f = some i := by
  rw [List.find?_eq_some_iff_append]
  refine ⟨hf, ?_⟩
  obtain ⟨as, bs, hab⟩ := List.append_of_mem (mem_allItems i)
  refine ⟨as, bs, hab, ?_⟩
  intro j hj
  have h := allItems_ascending
  rw [hab, List.pairwise_append] at h
  simp [hl j (h.2.2 j hj i (by simp))]

theorem findSome?_allItems {β : Type} (f : Item → Option β) (i : Item) (b : β) (hf : f i = some b)
    (hl : ∀ j, j.num < i.num → f j = none) : allItems.findSome? f = some b := by
  rw [List.findSome?_eq_some_iff]
  obtain ⟨as, bs, hab⟩ := List.append_of_mem (mem_allItems i)
  refine ⟨as, i, bs, hab, hf, ?_⟩
  intro j hj
  have h := allItems_ascending
  rw [hab, List.pairwise_append] at h
  exact hl j (h.2.2 j hj i (by simp))

theorem State.holdsAny_iff (s : State) (p : Port) : s.holdsAny p = true ↔ ∃ i, s.holder i = some p := by
  simp only [State.holdsAny, List.any_eq_true, State.holds, decide_eq_true_eq]
  exact ⟨fun ⟨i, _, h⟩ => ⟨i, h⟩, fun ⟨i, h⟩ => ⟨i, mem_allItems i, h⟩⟩

end Sys2Proof.Machine
end

