-- ==== Sys2Proof/Laws/Wire.lean ====
section
/-! SUPPORT. The request format: check bytes, and the fields of two and four bytes. -/

namespace Sys2Proof

theorem byteSum_append (as bs : List Byte) : byteSum (as ++ bs) = byteSum as + byteSum bs := by
  induction as with
  | nil => simp [byteSum]
  | cons a as ih => simp [byteSum, ih, BitVec.add_assoc]

/-- With its check byte a request sums to 0 (R149). -/
theorem byteSum_frameRequest (cmd : Byte) (args : List Byte) : byteSum (frameRequest cmd args) = 0 := by
  simp only [frameRequest, byteSum_append, checkByte]
  generalize byteSum (cmd :: BitVec.ofNat 8 args.length :: args) = x
  simp [byteSum]

theorem frameRequest_length (cmd : Byte) (args : List Byte) : (frameRequest cmd args).length = args.length + 3 := by
  simp [frameRequest]

/-- A two-byte field is read as it was written. -/
theorem half_be16 (h : Half) : half (h.extractLsb' 8 8) (h.extractLsb' 0 8) = h := by
  unfold half
  apply BitVec.eq_of_getLsbD_eq
  intro i hi
  rw [BitVec.getLsbD_append, BitVec.getLsbD_extractLsb', BitVec.getLsbD_extractLsb']
  split
  · simp_all
  · rw [decide_eq_true (by omega : i - 8 < 8), Bool.true_and, Nat.add_sub_cancel' (by omega)]

end Sys2Proof
end

