-- ==== Sys2Proof/Laws/PerInstr.lean ====
section
/-! SUPPORT. A statement made of every command: its request is framed as section 9.6 says. -/

namespace Sys2Proof.Laws.RequestFrame

/-- A row that is a command of a port has a code that the command table lists with the number of its argument bytes, and a
request of that many bytes and three more that sums to 0 (R148, R149); another row has no port and no request. -/
def Statement (c : Instr) : Prop :=
  match commandBytes c with
  | some (cmd, args) => commandPort c ≠ none ∧ commandLength cmd = some args.length ∧
      (frameRequest cmd args).length = args.length + 3 ∧ byteSum (frameRequest cmd args) = 0
  | none => commandPort c = none ∧ encodeRequest c = none

/-- A command's request, framed. -/
theorem of_command (c : Instr) (cmd : Byte) (args : List Byte) (h : commandBytes c = some (cmd, args))
    (hp : commandPort c ≠ none) (hl : commandLength cmd = some args.length) : Statement c := by
  simp only [Statement, h]
  exact ⟨hp, hl, frameRequest_length cmd args, byteSum_frameRequest cmd args⟩

theorem identify (port : Port) : Statement (.identify port) := of_command _ _ _ rfl (fun h => nomatch h) rfl
theorem portStatus (port : Port) (named : Byte) : Statement (.portStatus port named) :=
  of_command _ _ _ rfl (fun h => nomatch h) rfl
theorem readEvent (port : Port) : Statement (.readEvent port) := of_command _ _ _ rfl (fun h => nomatch h) rfl
theorem setNotify (port : Port) (mask : Byte) : Statement (.setNotify port mask) :=
  of_command _ _ _ rfl (fun h => nomatch h) rfl
theorem portReset (port : Port) (named : Byte) : Statement (.portReset port named) :=
  of_command _ _ _ rfl (fun h => nomatch h) rfl
theorem deviceReset (port : Port) : Statement (.deviceReset port) := of_command _ _ _ rfl (fun h => nomatch h) rfl
theorem claim (port : Port) (mask : Byte) : Statement (.claim port mask) :=
  of_command _ _ _ rfl (fun h => nomatch h) rfl
theorem release (port : Port) (mask : Byte) : Statement (.release port mask) :=
  of_command _ _ _ rfl (fun h => nomatch h) rfl
theorem seize (port : Port) (mask : Byte) : Statement (.seize port mask) :=
  of_command _ _ _ rfl (fun h => nomatch h) rfl
theorem setFallback (port : Port) (item value : Byte) : Statement (.setFallback port item value) :=
  of_command _ _ _ rfl (fun h => nomatch h) rfl
theorem setLiveness (port : Port) (named timeout : Byte) : Statement (.setLiveness port named timeout) :=
  of_command _ _ _ rfl (fun h => nomatch h) rfl
theorem readLeases (port : Port) : Statement (.readLeases port) := of_command _ _ _ rfl (fun h => nomatch h) rfl
theorem openSet (port : Port) (group : Byte) : Statement (.openSet port group) :=
  of_command _ _ _ rfl (fun h => nomatch h) rfl
theorem stageLeg (port : Port) (leg : Byte) (record : RawPattern) : Statement (.stageLeg port leg record) :=
  of_command _ _ _ rfl (fun h => nomatch h) rfl
theorem stageGroup (port : Port) (group : Byte) (record : RawTiming) : Statement (.stageGroup port group record) :=
  of_command _ _ _ rfl (fun h => nomatch h) rfl
theorem unstage (port : Port) (item : Byte) : Statement (.unstage port item) :=
  of_command _ _ _ rfl (fun h => nomatch h) rfl
theorem abandon (port : Port) : Statement (.abandon port) := of_command _ _ _ rfl (fun h => nomatch h) rfl
theorem withdraw (port : Port) (setId : Byte) : Statement (.withdraw port setId) :=
  of_command _ _ _ rfl (fun h => nomatch h) rfl
theorem ackSet (port : Port) (setId : Byte) : Statement (.ackSet port setId) :=
  of_command _ _ _ rfl (fun h => nomatch h) rfl
theorem setStatus (port : Port) (setId : Byte) : Statement (.setStatus port setId) :=
  of_command _ _ _ rfl (fun h => nomatch h) rfl
theorem start (port : Port) (group : Byte) : Statement (.start port group) :=
  of_command _ _ _ rfl (fun h => nomatch h) rfl
theorem stop (port : Port) (group form : Byte) : Statement (.stop port group form) :=
  of_command _ _ _ rfl (fun h => nomatch h) rfl
theorem configureGroup (port : Port) (group sync stopOutput : Byte) : Statement (.configureGroup port group sync stopOutput) :=
  of_command _ _ _ rfl (fun h => nomatch h) rfl
theorem assignLeg (port : Port) (leg group : Byte) : Statement (.assignLeg port leg group) :=
  of_command _ _ _ rfl (fun h => nomatch h) rfl
theorem trip (port : Port) (mask : Byte) : Statement (.trip port mask) := of_command _ _ _ rfl (fun h => nomatch h) rfl
theorem clearTrip (port : Port) (group : Byte) : Statement (.clearTrip port group) :=
  of_command _ _ _ rfl (fun h => nomatch h) rfl
theorem mapTrip (port : Port) (input mask time : Byte) : Statement (.mapTrip port input mask time) :=
  of_command _ _ _ rfl (fun h => nomatch h) rfl
theorem setSafe (port : Port) (leg levelA levelB delay : Byte) : Statement (.setSafe port leg levelA levelB delay) :=
  of_command _ _ _ rfl (fun h => nomatch h) rfl
theorem readActive (port : Port) (item : Byte) : Statement (.readActive port item) :=
  of_command _ _ _ rfl (fun h => nomatch h) rfl
theorem readPending (port : Port) (item : Byte) : Statement (.readPending port item) :=
  of_command _ _ _ rfl (fun h => nomatch h) rfl
theorem readOutputs (port : Port) : Statement (.readOutputs port) := of_command _ _ _ rfl (fun h => nomatch h) rfl
theorem badRequest (port : Port) (bytes : List Byte) : Statement (.badRequest port bytes) := ⟨rfl, rfl⟩
theorem malformed (port : Port) (cmd len : Byte) : Statement (.malformed port cmd len) := ⟨rfl, rfl⟩
theorem selectAsserted (port : Port) : Statement (.selectAsserted port) := ⟨rfl, rfl⟩
theorem selectReleased (port : Port) (whole : Bool) : Statement (.selectReleased port whole) := ⟨rfl, rfl⟩
theorem readEventCompleted (port : Port) : Statement (.readEventCompleted port) := ⟨rfl, rfl⟩
theorem portResetEffect (port : Port) (whole : Bool) : Statement (.portResetEffect port whole) := ⟨rfl, rfl⟩
theorem deviceResetEffect (port : Port) (whole : Bool) : Statement (.deviceResetEffect port whole) := ⟨rfl, rfl⟩
theorem livenessExpiry (port : Port) : Statement (.livenessExpiry port) := ⟨rfl, rfl⟩
theorem fallbackHalt (group : Group) : Statement (.fallbackHalt group) := ⟨rfl, rfl⟩
theorem tick (group : Group) : Statement (.tick group) := ⟨rfl, rfl⟩
theorem frameEnd (group : Group) : Statement (.frameEnd group) := ⟨rfl, rfl⟩
theorem syncEdge (group : Group) (rising : Bool) : Statement (.syncEdge group rising) := ⟨rfl, rfl⟩
theorem tripInputLow (input : TripInput) : Statement (.tripInputLow input) := ⟨rfl, rfl⟩
theorem tripInputQualified (input : TripInput) : Statement (.tripInputQualified input) := ⟨rfl, rfl⟩
theorem tripInputHigh (input : TripInput) : Statement (.tripInputHigh input) := ⟨rfl, rfl⟩
theorem safeWaitExpiry (leg : Leg) : Statement (.safeWaitExpiry leg) := ⟨rfl, rfl⟩
theorem clockLost : Statement .clockLost := ⟨rfl, rfl⟩
theorem restoreCountRestart : Statement .restoreCountRestart := ⟨rfl, rfl⟩
theorem clockRestored : Statement .clockRestored := ⟨rfl, rfl⟩
theorem powerOn (straps : BitVec 2) : Statement (.powerOn straps) := ⟨rfl, rfl⟩
theorem powerFail : Statement .powerFail := ⟨rfl, rfl⟩
theorem resetnAsserted : Statement .resetnAsserted := ⟨rfl, rfl⟩
theorem resetnReleased (straps : BitVec 2) : Statement (.resetnReleased straps) := ⟨rfl, rfl⟩
theorem startUpComplete : Statement .startUpComplete := ⟨rfl, rfl⟩

end Sys2Proof.Laws.RequestFrame

theorem Sys2Proof.Laws.RequestFrame.seal (port : Sys2Proof.Port) (form : Sys2Proof.Byte) (value : Sys2Proof.Frame) :
    Statement (.seal port form value) :=
  of_command _ _ _ rfl (fun h => nomatch h) rfl
end

