-- ==== Sys2Proof/Laws/Resets.lean ====
section
/-! SUPPORT. What a loss of leases does, said once: the fallbacks, an expiry and a PORT RESET. -/

namespace Sys2Proof.Machine

@[simp] theorem State.setHolders_leg (s : State) (pick : Item → Bool) (h : Option Port) (l : Leg) :
    (s.setHolders pick h).leg l = if pick (.leg l) = true then { s.leg l with holder := h } else s.leg l := by
  simp [State.setHolders]

@[simp] theorem State.setHolders_group (s : State) (pick : Item → Bool) (h : Option Port) (g : Group) :
    (s.setHolders pick h).group g = if pick (.group g) = true then { s.group g with holder := h } else s.group g := by
  simp [State.setHolders]

/-- The fallbacks change legs and groups alone. -/
theorem State.applyFallbacks_frame (s before : State) (p : Port) :
    s.applyFallbacks before p =
      { s with legs := (s.applyFallbacks before p).legs, groups := (s.applyFallbacks before p).groups } := rfl

theorem State.applyFallbacks_leg (s before : State) (p : Port) (l : Leg) :
    (s.applyFallbacks before p).leg l =
      if before.holder (.leg l) = some p ∧ (before.leg l).fallback = .off then
        offLeg (decide ((s.group (s.leg l).group).run = .tripped)) (s.leg l)
      else s.leg l := by
  simp [State.applyFallbacks, State.forceOffLegs, State.holds, LegState.forceOff_eq, State.tripped]

theorem State.applyFallbacks_group (s before : State) (p : Port) (g : Group) :
    (s.applyFallbacks before p).group g =
      if before.holder (.group g) = some p ∧ (before.group g).fallback = .halt then
        { s.group g with haltNotices := (s.group g).haltNotices + 1 }
      else s.group g := by
  simp [State.applyFallbacks, State.forceOffLegs, State.holds]

/-- What the loss of all its leases leaves of each leg. -/
theorem State.loss_leg (s u : State) (p : Port) (l : Leg)
    (hl : u.leg l = (s.setHolders (s.holds p) none).leg l)
    (hg : u.group (s.leg l).group = (s.setHolders (s.holds p) none).group (s.leg l).group) :
    (u.applyFallbacks s p).leg l = lostLeg s p (s.leg l) := by
  rw [State.applyFallbacks_leg, hl]
  have hg' : (u.group (s.leg l).group).run = (s.group (s.leg l).group).run := by
    rw [hg, State.setHolders_group]; split <;> rfl
  unfold lostLeg
  by_cases h : (s.leg l).holder = some p
  · by_cases hf : (s.leg l).fallback = .off <;> simp [State.holder, State.holds, h, hf, hg']
    simp only [offLeg]
    split <;> simp [hf]
  · simp [State.holder, State.holds, h]

theorem State.loss_group (s u : State) (p : Port) (g : Group)
    (hg : u.group g = (s.setHolders (s.holds p) none).group g) :
    (u.applyFallbacks s p).group g = lostGroup p (s.group g) := by
  rw [State.applyFallbacks_group, hg]
  unfold lostGroup
  by_cases h : (s.group g).holder = some p
  · by_cases hf : (s.group g).fallback = .halt <;> simp [State.holder, State.holds, h, hf]
  · simp [State.holder, State.holds, h]

/-- A PORT RESET of a port: the legs, the groups and the sets. -/
theorem State.resetPort_leg (s : State) (p : Port) (b : Bool) (l : Leg) :
    (s.resetPort p b).leg l = lostLeg s p (s.leg l) := by
  unfold State.resetPort
  simp only [State.raiseToSupervisor_leg, State.modPort_leg]
  exact State.loss_leg s _ p l rfl rfl

theorem State.resetPort_group (s : State) (p : Port) (b : Bool) (g : Group) :
    (s.resetPort p b).group g = lostGroup p (s.group g) := by
  unfold State.resetPort
  simp only [State.raiseToSupervisor_group, State.modPort_group]
  exact State.loss_group s _ p g rfl

theorem State.resetPort_sets (s : State) (p : Port) (b : Bool) :
    (s.resetPort p b).sets = s.sets.filter fun c => decide (c.owner ≠ p) := by
  unfold State.resetPort
  simp only [State.raiseToSupervisor_sets]
  rfl

theorem State.applyFallbacks_port (s before : State) (p q : Port) : (s.applyFallbacks before p).port q = s.port q := rfl

theorem State.applyFallbacks_supervisor (s before : State) (p : Port) :
    (s.applyFallbacks before p).supervisor = s.supervisor := rfl

theorem State.setHolders_port (s : State) (pick : Item → Bool) (h : Option Port) (q : Port) :
    (s.setHolders pick h).port q = s.port q := rfl

theorem State.resetPort_port (s : State) (p q : Port) (b : Bool) :
    (s.resetPort p b).port q =
      (if q = p then (s.port q).cleared else s.port q).afterRecords (toSupervisor s p [.portReset p b] q) := by
  unfold State.resetPort
  rw [State.raiseToSupervisor_port, State.modPort_port]
  rfl

theorem State.resetPort_frame (s : State) (p : Port) (b : Bool) :
    s.resetPort p b = { s with
      ports := (s.resetPort p b).ports
      legs := (s.resetPort p b).legs
      groups := (s.resetPort p b).groups
      sets := (s.resetPort p b).sets } := by
  unfold State.resetPort
  rw [State.raiseToSupervisor_frame]
  rfl

/-- An expiry of a port's timer: the legs, the groups, the sets, the queues. -/
theorem State.expire_leg (s : State) (p : Port) (l : Leg) : (s.expire p).leg l = lostLeg s p (s.leg l) := by
  unfold State.expire
  simp only [State.modPort_leg, State.raiseToSupervisor_leg, State.raiseList_leg]
  apply State.loss_leg s _ p l
  · rw [State.cancelSets_leg]; rfl
  · rw [State.cancelSets_group]; rfl

theorem State.expire_group (s : State) (p : Port) (g : Group) : (s.expire p).group g = lostGroup p (s.group g) := by
  unfold State.expire
  simp only [State.modPort_group, State.raiseToSupervisor_group, State.raiseList_group]
  apply State.loss_group s _ p g
  rw [State.cancelSets_group]; rfl

theorem State.expire_sets (s : State) (p : Port) :
    (s.expire p).sets = (s.sets.filter fun c => !(decide (c.owner = p) && c.isOpen)).map fun c =>
      if c.owner = p then cancelledAs .leaseLost c else c := by
  unfold State.expire
  simp only [State.modPort_sets, State.raiseToSupervisor_sets, State.raiseList_sets]
  rw [State.applyFallbacks_frame]
  simp only [State.cancelSets_sets, decide_eq_true_eq]
  rfl

theorem State.expire_frame (s : State) (p : Port) :
    s.expire p = { s with
      ports := (s.expire p).ports
      legs := (s.expire p).legs
      groups := (s.expire p).groups
      sets := (s.expire p).sets } := by
  have step (u : State) (es : List Event) (f : PortState → PortState) :
      ((u.raiseList p es).raiseToSupervisor p es).modPort p f =
        { u with ports := (((u.raiseList p es).raiseToSupervisor p es).modPort p f).ports } := by
    rw [State.raiseToSupervisor_frame, State.raiseList_frame]
    rfl
  unfold State.expire
  rw [step, State.applyFallbacks_frame, State.cancelSets_frame]
  rfl

end Sys2Proof.Machine
end

