-- ==== Sys2Proof/Laws/Serial.lean ====
section
/-! SUPPORT. What the serial lines do, said once: bytes and their bits, and the edges of SCKx. -/

namespace Sys2Proof.Machine

@[simp] theorem bitsOf_length (b : Byte) : (bitsOf b).length = 8 := rfl

/-- The byte made of a byte's bits is that byte (R146). -/
theorem byteOfBits_bitsOf : ∀ b : Byte, byteOfBits (bitsOf b) = b := by decide

theorem flatMap_bitsOf_length (bytes : List Byte) : (bytes.flatMap bitsOf).length = 8 * bytes.length := by
  induction bytes with
  | nil => rfl
  | cons b bs ih => rw [List.flatMap_cons, List.length_append, ih, bitsOf_length, List.length_cons]; omega

/-- Bit i of byte k of bytes that are sent is bit 7 − i of that byte, and 0 past the last one (R146). -/
theorem flatMap_bitsOf_getD (bytes : List Byte) (k i : Nat) (hi : i < 8) :
    (bytes.flatMap bitsOf).getD (8 * k + i) false = (bytes.getD k 0).getLsbD (7 - i) := by
  induction bytes generalizing k with
  | nil => simp
  | cons b bs ih =>
    cases k with
    | zero =>
      rw [List.flatMap_cons, List.getD_append _ _ _ _ (by rw [bitsOf_length]; omega), List.getD_cons_zero]
      have h : i = 0 ∨ i = 1 ∨ i = 2 ∨ i = 3 ∨ i = 4 ∨ i = 5 ∨ i = 6 ∨ i = 7 := by omega
      rcases h with rfl | rfl | rfl | rfl | rfl | rfl | rfl | rfl <;> rfl
    | succ k =>
      rw [List.flatMap_cons, List.getD_append_right _ _ _ _ (by rw [bitsOf_length]; omega), List.getD_cons_succ, ← ih k]
      congr 1
      rw [bitsOf_length]
      omega

section line
variable (l : SerialLine) (data keep : Bool)

/-- A bit before the eighth of a byte is kept (R146). -/
theorem SerialLine.sample_part (h : l.bits.length < 7) :
    l.sample data keep = { l with clockHigh := true, bits := l.bits ++ [data], sampled := l.sampled + 1 } := by
  unfold SerialLine.sample
  rw [if_pos]
  rw [List.length_append, List.length_singleton]
  omega

/-- The eighth bit of a byte completes it (R146). -/
theorem SerialLine.sample_eighth (h : 7 ≤ l.bits.length) :
    l.sample data keep = { l with
      clockHigh := true, bits := [], sampled := l.sampled + 1
      request := if keep then l.request ++ [byteOfBits (l.bits ++ [data])] else l.request } := by
  unfold SerialLine.sample
  rw [if_neg]
  rw [List.length_append, List.length_singleton]
  omega

end line

section clock
variable (high data : Bool) (q : PortState)

/-- A level of SCKx changes nothing of a port but its lines (R146). -/
theorem PortState.clockLevel_frame : q.clockLevel high data = { q with line := (q.clockLevel high data).line } := by
  unfold PortState.clockLevel
  split
  · rfl
  · split <;> rfl

@[simp] theorem PortState.clockLevel_txn : (q.clockLevel high data).txn = q.txn := by rw [q.clockLevel_frame high data]

@[simp] theorem PortState.clockLevel_selectLow : (q.clockLevel high data).selectLow = q.selectLow := by
  rw [q.clockLevel_frame high data]

@[simp] theorem PortState.clockLevel_same (h : q.line.clockHigh = high) : q.clockLevel high data = q := if_pos h

/-- No row follows but from a bit sampled at a rising edge with SSx low (R146). -/
theorem State.clockRows_nil (s : State) (p : Port)
    (h : high = false ∨ (s.port p).line.clockHigh = true ∨ (s.port p).selectLow = false) :
    s.clockRows p high data = [] := by
  unfold State.clockRows
  rw [if_neg]
  rcases h with h | h | h <;> simp [h]

end clock

end Sys2Proof.Machine
end

