-- ==== Sys2Proof/Laws/Time.lean ====
section
/-! SUPPORT. What happens while no command waits, said once: the order of due rows loses and adds none, and each happening
changes its own part of the state. -/

namespace Sys2Proof.Machine

/-! ### The order of due rows -/

theorem perm_placeAt (x : Instr) : ∀ (xs : List Instr) (n : Nat), (placeAt x xs n).Perm (x :: xs)
  | [], _ => .refl _
  | _ :: _, 0 => .refl _
  | y :: ys, n + 1 => ((perm_placeAt x ys n).cons y).trans (.swap x y ys)

/-- The free order is an order of the rows that fall due (log entry 6). -/
theorem perm_arrange : ∀ (n : Nat) (xs : List Instr), (arrange n xs).Perm xs
  | _, [] => .refl _
  | n, x :: xs => (perm_placeAt x _ _).trans ((perm_arrange (n + 1) xs).cons x)

theorem mem_arrange {n : Nat} {xs : List Instr} {c : Instr} : c ∈ arrange n xs ↔ c ∈ xs := (perm_arrange n xs).mem_iff

theorem nodup_arrange {n : Nat} {xs : List Instr} : (arrange n xs).Nodup ↔ xs.Nodup := (perm_arrange n xs).nodup_iff

@[simp] theorem arrange_nil (n : Nat) : arrange n [] = [] := rfl

/-- Only a tick or a natural end of a frame that a resync edge before it cuts short does not occur (R23, R34). -/
theorem State.isStale_iff (s : State) (rows : List Instr) (c : Instr) :
    s.isStale rows c = true ↔ ∃ g, (c = .tick g ∨ c = .frameEnd g) ∧ s.cutsFrame g (s.syncInput g).pinHigh = true ∧
      rows.idxOf (.syncEdge g (s.syncInput g).pinHigh) < rows.idxOf c := by
  simp only [State.isStale, List.any_eq_true, Bool.and_eq_true, decide_eq_true_eq, and_assoc]
  exact ⟨fun ⟨g, _, h⟩ => ⟨g, h⟩, fun ⟨g, h⟩ => ⟨g, by cases g <;> decide, h⟩⟩

theorem State.mem_refclkRows {s : State} {rows : List Instr} {c : Instr} :
    c ∈ s.refclkRows rows ↔ c ∈ rows ∧ s.isStale rows c = false := by
  simp [State.refclkRows]

theorem State.nodup_refclkRows {s : State} {rows : List Instr} (h : rows.Nodup) : (s.refclkRows rows).Nodup :=
  h.filter _

section enqueue
variable (s : State) (rows : List Instr) (made : Nat)

theorem State.enqueue_frame :
    s.enqueue rows made = { s with choices := (s.enqueue rows made).choices, pending := (s.enqueue rows made).pending } :=
  rfl

@[simp] theorem State.enqueue_pending : (s.enqueue rows made).pending = s.pending ++ rows := rfl

@[simp] theorem State.enqueue_port (p : Port) : (s.enqueue rows made).port p = s.port p := rfl

@[simp] theorem State.enqueue_leg (l : Leg) : (s.enqueue rows made).leg l = s.leg l := rfl

@[simp] theorem State.enqueue_group (g : Group) : (s.enqueue rows made).group g = s.group g := rfl

@[simp] theorem State.enqueue_input (i : TripInput) : (s.enqueue rows made).input i = s.input i := rfl

@[simp] theorem State.enqueue_syncInput (g : Group) : (s.enqueue rows made).syncInput g = s.syncInput g := rfl

end enqueue

section enqueueDue
variable (s : State) (due : List Instr)

theorem State.enqueueDue_frame :
    s.enqueueDue due = { s with
      choices := (s.enqueueDue due).choices, pending := (s.enqueueDue due).pending } := rfl

@[simp] theorem State.enqueueDue_pending : (s.enqueueDue due).pending = s.pending ++ arrange s.choices due := rfl

@[simp] theorem State.enqueueDue_port (p : Port) : (s.enqueueDue due).port p = s.port p := rfl

@[simp] theorem State.enqueueDue_leg (l : Leg) : (s.enqueueDue due).leg l = s.leg l := rfl

@[simp] theorem State.enqueueDue_group (g : Group) : (s.enqueueDue due).group g = s.group g := rfl

@[simp] theorem State.enqueueDue_input (i : TripInput) : (s.enqueueDue due).input i = s.input i := rfl

@[simp] theorem State.enqueueDue_syncInput (g : Group) : (s.enqueueDue due).syncInput g = s.syncInput g := rfl

end enqueueDue

/-! ### A tenth of a microsecond and an edge of REFCLK -/

section count
variable (s : State)

@[simp] theorem State.countMicrosecond_port (p : Port) :
    s.countMicrosecond.port p = { s.port p with
      timer := if s.liveStepEnds then (s.port p).timer.map fun n => n - 1 else (s.port p).timer } := by
  cases p <;> rfl

@[simp] theorem State.countMicrosecond_leg (l : Leg) :
    s.countMicrosecond.leg l = { s.leg l with safeWait := (s.leg l).safeWait.map fun n => n - 1 } := by
  cases l <;> rfl

@[simp] theorem State.countMicrosecond_input (i : TripInput) :
    s.countMicrosecond.input i = { s.input i with
      filter := if (s.input i).pinLow then (s.input i).filter.count else (s.input i).filter } := by
  cases i <;> rfl

@[simp] theorem State.countTenth_port (p : Port) :
    s.countTenth.port p = if s.microEnds then s.countMicrosecond.port p else s.port p := by
  unfold State.countTenth; split <;> rfl

@[simp] theorem State.countTenth_leg (l : Leg) :
    s.countTenth.leg l = if s.microEnds then s.countMicrosecond.leg l else s.leg l := by
  unfold State.countTenth; split <;> rfl

@[simp] theorem State.countTenth_input (i : TripInput) :
    s.countTenth.input i = if s.microEnds then s.countMicrosecond.input i else s.input i := by
  unfold State.countTenth; split <;> rfl

/-- All that a tenth of a microsecond changes, beside the ports, legs and inputs. -/
theorem State.countTenth_frame :
    s.countTenth = { s with
      hkoTenths := if s.microEnds then 0 else s.hkoTenths + 1
      hkoMicros := if s.microEnds then (if s.liveStepEnds then 0 else s.hkoMicros + 1) else s.hkoMicros
      ports := s.countTenth.ports, inputs := s.countTenth.inputs, legs := s.countTenth.legs
      monitor := s.monitor.count, refclkGap := s.refclkGap + 1 } := by
  unfold State.countTenth; split <;> rfl

/-- A time is not up before its soonest tenth. -/
theorem State.timeUp_soon {what : HkoTime} {tenths : Nat} (h : s.timeUp what tenths = true) :
    Config.soonest what ≤ tenths := by
  unfold State.timeUp at h
  rw [Bool.or_eq_true, Bool.and_eq_true, decide_eq_true_eq, decide_eq_true_eq] at h
  rcases h with h | h
  · cases what <;> simp only [Config.soonest, Config.latest] at * <;> omega
  · exact h.1

/-- A time is up at its latest tenth. -/
theorem State.timeUp_late {what : HkoTime} {tenths : Nat} (h : Config.latest what ≤ tenths) :
    s.timeUp what tenths = true := by
  simp [State.timeUp, h]

@[simp] theorem State.countRefclk_group (g : Group) :
    s.countRefclk.group g = { s.group g with
      division := if s.ticking g then (s.group g).division + 1 else (s.group g).division } := by
  cases g <;> rfl

@[simp] theorem State.countRefclk_syncInput (g : Group) :
    s.countRefclk.syncInput g = { s.syncInput g with sample := (s.syncInput g).pinHigh } := by
  cases g <;> rfl

end count

/-! ### The idle step, one happening at a time -/

section happen
variable (s : State)

theorem State.idle_of_not_operating (h : s.condition ≠ .operating) : s.idle = s := by
  unfold State.idle State.operating
  rw [if_neg (by simpa using h)]

theorem State.idle_of_operating (h : s.condition = .operating) :
    s.idle = { s with choices := s.choices + 1 }.happen (Config.happens s.choices) := by
  unfold State.idle State.operating
  rw [if_pos (by simpa using h)]

@[simp] theorem State.happen_oscillator : s.happen .oscillator = s.countTenth.enqueueDue s.dueEvents := rfl

@[simp] theorem State.happen_refclk :
    s.happen .refclk =
      s.countRefclk.enqueue (s.refclkRows (arrange s.choices s.dueRefclk)) s.dueRefclk.length := rfl

@[simp] theorem State.happen_syncPin (g : Group) (high : Bool) :
    s.happen (.syncPin g high) = s.modSync g fun v => { v with pinHigh := high } := rfl

@[simp] theorem State.happen_tripPin (i : TripInput) (low : Bool) :
    s.happen (.tripPin i low) = s.modInput i fun v => { v with pinLow := low } := rfl

@[simp] theorem State.happen_sck (p : Port) (high data : Bool) :
    s.happen (.sck p high data) =
      (s.modPort p (PortState.clockLevel high data)).enqueueDue (s.clockRows p high data) := rfl

@[simp] theorem State.happen_notice (g : Group) : s.happen (.notice g) = s.enqueueDue (s.dueNotice g) := rfl

end happen

end Sys2Proof.Machine
end

