-- ==== Sys2Proof/Laws/Trips.lean ====
section
/-! SUPPORT. What a trip does, said once: of one group, and of the groups that a test picks. -/

namespace Sys2Proof.Machine

/-- The trip of a group that is not TRIPPED changes its timer, its cause set, the legs, the sets and the queues. -/
theorem State.firstTrip_frame (s : State) (g : Group) (c : Cause) :
    s.firstTrip g c = { s with
      ports := (s.firstTrip g c).ports
      groups := (s.firstTrip g c).groups
      legs := (s.firstTrip g c).legs
      sets := (s.firstTrip g c).sets } := by
  unfold State.firstTrip
  rw [State.cancelSets_frame]
  rfl

theorem State.firstTrip_group (s : State) (g h : Group) (c : Cause) :
    (s.firstTrip g c).group h =
      if h = g then { s.group h with run := .tripped, causes := CauseSet.empty.add c } else s.group h := by
  unfold State.firstTrip
  by_cases e : h = g <;> simp [e]

theorem State.firstTrip_leg (s : State) (g : Group) (c : Cause) (l : Leg) :
    (s.firstTrip g c).leg l = if (s.leg l).group = g then (s.leg l).toSafe else s.leg l := by
  unfold State.firstTrip
  simp

theorem State.firstTrip_sets (s : State) (g : Group) (c : Cause) :
    (s.firstTrip g c).sets = s.sets.map fun k => if k.group = g then cancelledAs .tripped k else k := by
  unfold State.firstTrip
  simp

theorem State.firstTrip_port (s : State) (g : Group) (c : Cause) (q : Port) :
    (s.firstTrip g c).port q =
      (s.port q).afterRecords (cancelRecords s (fun k => decide (k.group = g)) .tripped q ++ [.trip g c]) := by
  unfold State.firstTrip
  simp only [State.raiseAll_port, State.modLegsOf_port, State.cancelSets_port, State.modGroup_port,
    PortState.afterRecords_append]
  rfl

theorem State.addCause_frame (s : State) (g : Group) (c : Cause) :
    s.addCause g c = { s with ports := (s.addCause g c).ports, groups := (s.addCause g c).groups } := by
  unfold State.addCause
  split <;> rfl

theorem State.addCause_group (s : State) (g h : Group) (c : Cause) :
    (s.addCause g c).group h =
      if h = g ∧ (s.group g).causes.has c = false then { s.group h with causes := (s.group h).causes.add c }
      else s.group h := by
  unfold State.addCause
  cases hc : (s.group g).causes.has c <;> by_cases e : h = g <;> simp [e]

theorem State.addCause_port (s : State) (g : Group) (c : Cause) (q : Port) :
    (s.addCause g c).port q =
      (s.port q).afterRecords (if (s.group g).causes.has c = true then [] else [.trip g c]) := by
  unfold State.addCause
  split <;> simp_all

/-- A cause that reaches one group: its frame. -/
theorem State.tripGroup_frame (s : State) (g : Group) (c : Cause) :
    s.tripGroup g c = { s with
      ports := (s.tripGroup g c).ports
      groups := (s.tripGroup g c).groups
      legs := (s.tripGroup g c).legs
      sets := (s.tripGroup g c).sets } := by
  unfold State.tripGroup
  split
  · rw [State.addCause_frame]
  · exact State.firstTrip_frame s g c

/-- A cause that reaches one group: what it leaves of each group. -/
theorem State.tripGroup_group (s : State) (g h : Group) (c : Cause) :
    (s.tripGroup g c).group h =
      if h = g then
        if (s.group h).run = .tripped then
          if (s.group h).causes.has c = true then s.group h
          else { s.group h with causes := (s.group h).causes.add c }
        else { s.group h with run := .tripped, causes := CauseSet.empty.add c }
      else s.group h := by
  unfold State.tripGroup State.tripped
  by_cases e : h = g
  · subst e
    by_cases r : (s.group h).run = .tripped
    · cases hc : (s.group h).causes.has c <;> simp [r, State.addCause_group, hc]
    · simp [r, State.firstTrip_group]
  · by_cases r : (s.group g).run = .tripped <;> simp [r, e, State.addCause_group, State.firstTrip_group]

theorem State.tripGroup_leg (s : State) (g : Group) (c : Cause) (l : Leg) :
    (s.tripGroup g c).leg l =
      if (s.leg l).group = g ∧ (s.group g).run ≠ .tripped then (s.leg l).toSafe else s.leg l := by
  unfold State.tripGroup State.tripped
  by_cases r : (s.group g).run = .tripped
  · rw [if_pos (by simpa using r), State.addCause_frame]
    simp only [r, ne_eq, not_true_eq_false, and_false, if_false]
    rfl
  · simp [r, State.firstTrip_leg]

theorem State.tripGroup_sets (s : State) (g : Group) (c : Cause) :
    (s.tripGroup g c).sets =
      s.sets.map fun k => if k.group = g ∧ (s.group g).run ≠ .tripped then cancelledAs .tripped k else k := by
  unfold State.tripGroup State.tripped
  by_cases r : (s.group g).run = .tripped
  · rw [if_pos (by simpa using r), State.addCause_frame]
    simp [r]
  · simp [r, State.firstTrip_sets]

theorem State.tripGroup_port (s : State) (g : Group) (c : Cause) (q : Port) :
    (s.tripGroup g c).port q =
      (s.port q).afterRecords (
        if (s.group g).run = .tripped then (if (s.group g).causes.has c = true then [] else [.trip g c])
        else cancelRecords s (fun k => decide (k.group = g)) .tripped q ++ [.trip g c]) := by
  unfold State.tripGroup State.tripped
  by_cases r : (s.group g).run = .tripped
  · simp [r, State.addCause_port]
  · simp [r, State.firstTrip_port]

theorem safeLeg_group (v : LegState) : (safeLeg v).group = v.group := rfl

theorem cancelledAs_group (why : CancelReason) (c : ChangeSet) : (cancelledAs why c).group = c.group := by
  unfold cancelledAs
  split <;> rfl

/-- A cause that reaches the groups that a test picks: what it leaves of the groups, the legs and the sets. -/
theorem State.tripGroups_trippedBy (s : State) (pick : Group → Bool) (c : Cause) (hi : InterlockLaw s) :
    TrippedBy pick c s (s.tripGroups pick c) := by
  have safe (l : Leg) : (s.leg l).toSafe = safeLeg (s.leg l) := LegState.toSafe_eq _ (hi l).1 (hi l).2
  constructor
  · intro g
    unfold State.tripGroups
    cases h0 : pick .g0 <;> cases h1 : pick .g1 <;> cases g <;>
      by_cases r0 : (s.group .g0).run = .tripped <;> by_cases r1 : (s.group .g1).run = .tripped <;>
      cases c0 : (s.group .g0).causes.has c <;> cases c1 : (s.group .g1).causes.has c <;>
      simp [State.tripGroup_group, newlyTripped, causeAdded, h0, h1, r0, r1, c0, c1]
  · intro l
    unfold State.tripGroups
    cases h0 : pick .g0 <;> cases h1 : pick .g1 <;> cases g : (s.leg l).group <;>
      by_cases r0 : (s.group .g0).run = .tripped <;> by_cases r1 : (s.group .g1).run = .tripped <;>
      simp [State.tripGroup_leg, State.tripGroup_group, safeLeg_group, newlyTripped, h0, h1, r0, r1, g, safe]
  · have key : (s.tripGroups pick c).sets.map id = s.sets.map fun k =>
        if newlyTripped s pick k.group = true then cancelledAs .tripped k else k := by
      unfold State.tripGroups
      cases h0 : pick .g0 <;> cases h1 : pick .g1 <;>
        by_cases r0 : (s.group .g0).run = .tripped <;> by_cases r1 : (s.group .g1).run = .tripped <;>
        simp only [State.tripGroup_sets, State.tripGroup_group, List.map_map, if_true, if_false, Bool.false_eq_true] <;>
        apply List.map_congr_left <;> intro k hk <;>
        cases g : k.group <;> simp [newlyTripped, g, cancelledAs_group, h0, h1, r0, r1]
    rwa [List.map_id] at key

/-- A cause that reaches the groups that a test picks: its frame. -/
theorem State.tripGroups_frame (s : State) (pick : Group → Bool) (c : Cause) :
    s.tripGroups pick c = { s with
      ports := (s.tripGroups pick c).ports
      groups := (s.tripGroups pick c).groups
      legs := (s.tripGroups pick c).legs
      sets := (s.tripGroups pick c).sets } := by
  unfold State.tripGroups
  cases pick .g0 <;> cases pick .g1
  · rfl
  · simp only [Bool.false_eq_true, if_true, if_false]; rw [State.tripGroup_frame]
  · simp only [Bool.false_eq_true, if_true, if_false]; rw [State.tripGroup_frame]
  · simp only [if_true]
    rw [State.tripGroup_frame (s.tripGroup .g0 c), State.tripGroup_frame s]

theorem cancelledAs_isPending (why : CancelReason) (c : ChangeSet) : (cancelledAs why c).isPending = false := by
  rcases c with ⟨i, o, g, b⟩
  cases b <;> rfl

theorem cancelRecords_after_trip (s : State) (c : Cause) (q : Port) :
    cancelRecords (s.tripGroup .g0 c) (fun k => decide (k.group = .g1)) .tripped q =
      cancelRecords s (fun k => decide (k.group = .g1)) .tripped q := by
  unfold cancelRecords
  rw [State.tripGroup_sets]
  induction s.sets with
  | nil => rfl
  | cons k ks ih =>
    simp only [List.map_cons, List.filter_cons]
    cases g : k.group
    · by_cases r0 : (s.group .g0).run = .tripped <;> simp_all [cancelledAs_group]
    · cases hk : k.isPending <;> by_cases ho : k.owner = q <;> simp_all

/-- A cause that reaches the groups that a test picks: the records that each port receives. -/
theorem State.tripGroups_told (s : State) (pick : Group → Bool) (c : Cause) :
    Told (tripRecords s pick c) s (s.tripGroups pick c) := by
  intro q
  unfold State.tripGroups tripRecords tripRecordsOf
  cases h0 : pick .g0 <;> cases h1 : pick .g1 <;>
    by_cases r0 : (s.group .g0).run = .tripped <;> by_cases r1 : (s.group .g1).run = .tripped <;>
    cases c0 : (s.group .g0).causes.has c <;> cases c1 : (s.group .g1).causes.has c <;>
    simp [State.tripGroup_port, State.tripGroup_group, cancelRecords_after_trip, PortState.afterRecords_append,
      newlyTripped, causeAdded, h0, h1, r0, r1, c0, c1]

end Sys2Proof.Machine
end

