-- ==== Sys2Proof/Tests/Slice0.lean ====
section
/-! SUPPORT. Tests against the manual's own examples and tables, the WellFormed smoke, and a witness for the hypotheses of
each statement. -/

namespace Sys2Proof.Tests

open Sys2Proof.Machine

/-! ### States -/

/-- OPERATING, P2 the supervisor, REFCLK present, every port in REQUEST. -/
def up : State :=
  { State.reset with
    condition := .operating
    supervisor := some .p2
    monitor := .present
    ports := State.reset.ports.map fun _ v => { v with selectLow := true, txn := .request } }

/-- Nothing but the condition and the ports' select lines differ from reset: no port is selected. -/
def quiet : State := { up with ports := State.reset.ports }

/-- The COMPLEMENTARY record of section 11.1: offset 2, width 8, gap 3. -/
def wave : PatternRecord :=
  { mode := .complementary, polarityA := .activeHigh, polarityB := .activeHigh, gap := 3, offsetA := 2, widthA := 8,
    offsetB := 0, widthB := 0 }

/-- P0 holds L0, L1, L2 and G0 with its timer RUNNING; G0 has a period of 20 ticks. -/
def leased : State :=
  ((up.setHolders (inMask 0x47) (some .p0)).modPort .p0 fun q => { q with timer := some 50 }).modGroup .g0
    fun v => { v with timing := { v.timing with period := 20 } }

/-- P0 owns set 1, OPEN with an edit of L0; set 2, PENDING at 1 with edits of L1 and G0; and set 3, DONE. -/
def busy : State :=
  { leased with
    sets :=
      [{ id := 1, owner := .p0, group := .g0, body := .opened [.leg .l0 wave] },
       { id := 3, owner := .p0, group := .g0, body := .done 0 (.applied 0) },
       { id := 2, owner := .p0, group := .g0,
         body := .pending [.leg .l1 wave, .group .g0 { period := 20, divider := 7, budget := 3 }] 1 1 }]
    nextId := 4
    sealCount := 1 }

/-- G0 placed in a run state, at a tick and with a sync mode. -/
def placed (run : RunState) (tick : Nat) (sync : SyncMode) (s : State) : State :=
  s.modGroup .g0 fun v => { v with run := run, tick := tick, sync := sync }

/-- G0 TRIPPED by a command, its sets PENDING cancelled. -/
def tripped : State := busy.tripGroup .g0 .command

/-- The machine's answer to a row, where it answers a next state. -/
def after (c : Instr) (s : State) : State :=
  match exec c s with
  | .next t => t
  | .fault _ => s
  | .refused _ => s

/-- The result and data with which a port answers. -/
def reply (p : Port) (s : State) : Option (Result × List Byte) :=
  match (s.port p).txn with
  | .response r _ => some (r.result, r.data)
  | .deselected | .request | .discard _ => none

theorem all_legs (P : Leg → Prop) (h : ∀ l ∈ allLegs, P l) (l : Leg) : P l := h l (by cases l <;> decide)

theorem all_groups (P : Group → Prop) (h : ∀ g ∈ allGroups, P g) (g : Group) : P g := h g (by cases g <;> decide)

theorem all_ports (P : Port → Prop) (h : ∀ p ∈ allPorts, P p) (p : Port) : P p := h p (by cases p <;> decide)

theorem all_items (P : Item → Prop) (h : ∀ i ∈ allItems, P i) (i : Item) : P i := h i (mem_allItems i)

/-! ### The WellFormed smoke: each check refuses an ill-formed term -/

/-- A good request is no BAD_REQUEST. -/
theorem test_wellFormed_refuses_good_request : (Instr.badRequest .p1 [0x01, 0x00, 0xFF]).wellFormed = false := by decide

/-- Bytes that are not a whole request are no BAD_REQUEST. -/
theorem test_wellFormed_refuses_part_request : (Instr.badRequest .p1 [0x01]).wellFormed = false := by decide

/-- A LEN of 16 is not MALFORMED (R148). -/
theorem test_wellFormed_refuses_len_16 : (Instr.malformed .p0 0x01 16).wellFormed = false := by decide

theorem test_wellFormed_accepts :
    (Instr.badRequest .p1 [0x01, 0x00, 0xFE]).wellFormed = true ∧ (Instr.malformed .p0 0x01 17).wellFormed = true := by
  decide

/-! ### Requests and responses (chapter 9) -/

/-- The IDENTIFY of section 9.2. -/
theorem test_identify_request : classifyRequest .p1 [0x01, 0x00, 0xFF] = .good (.identify .p1) := by decide

/-- An all-zero request is answered UNKNOWN (R149). -/
theorem test_zero_request : classifyRequest .p1 [0x00, 0x00, 0x00] = .bad .unknown := by decide

/-- IDENTIFY with another check byte is answered CHECK, with RCHK 0xFD (section 9.2). -/
theorem test_check_response :
    classifyRequest .p1 [0x01, 0x00, 0xFE] = .bad .check ∧ (Response.mk .check []).bytes = [0x03, 0x00, 0xFD] := by decide

/-- The response of section 9.2: 00 05 57 6C 01 01 02 34. -/
theorem test_identify_response :
    (reply .p1 (after (.identify .p1) up)).map (fun r => (Response.mk r.1 r.2).bytes) =
      some [0x00, 0x05, 0x57, 0x6C, 0x01, 0x01, 0x02, 0x34] := by decide

/-- SEAL AT 45: form 2 and the frame number, most significant byte first (R146, section 9.6). -/
theorem test_seal_request :
    classifyRequest .p0 [0x24, 0x05, 0x02, 0x00, 0x00, 0x00, 0x2D, 0xA8] = .good (.seal .p0 2 45) := by decide

/-- STAGE GROUP (20, 7, 0) of G0: period, divider, budget (section 9.7). -/
theorem test_stage_group_request :
    classifyRequest .p0 [0x22, 0x06, 0x00, 0x00, 0x14, 0x07, 0x00, 0x00, 0xBD] =
      .good (.stageGroup .p0 0 { period := 20, divider := 7, budget := 0 }) := by decide

/-- STAGE LEG L2 with a window at 16 of width 8 and a gap of 3 (sections 9.7 and 11.1). -/
theorem test_stage_leg_request :
    classifyRequest .p0 [0x21, 0x0D, 0x02, 0x02, 0x00, 0x00, 0x03, 0x00, 0x10, 0x00, 0x08, 0x00, 0x00, 0x00, 0x00, 0xB3] =
      .good (.stageLeg .p0 2 { mode := 2, polarity := 0, gap := 3, offsetA := 16, widthA := 8, offsetB := 0, widthB := 0 })
    := by decide

/-! ### Single steps -/

/-- Section 11.1, step 3: CLAIM 0x47 grants 0x47, and the timer starts. -/
theorem test_claim : reply .p0 (after (.claim .p0 0x47) up) = some (.ok, [0x47, 0x47]) ∧
    ((after (.claim .p0 0x47) up).port .p0).timer = some 50 := by decide

/-- Section 11.3, step 1: a claim of a held leg is refused HELD with the item and its holder. -/
theorem test_claim_held : reply .p1 (after (.claim .p1 0x04) leased) = some (.held, [2, 0]) := by decide

/-- Section 11.3, step 2: a release of an item with an edit is refused IN_SET with the item and the set. -/
theorem test_release_in_set : reply .p0 (after (.release .p0 0x01) busy) = some (.inSet, [0, 1]) := by decide

/-- Section 11.3, step 4: a release leaves the rest held. -/
theorem test_release : reply .p0 (after (.release .p0 0x04) leased) = some (.ok, [0x43]) := by decide

/-- The table of R73, for a group at FN 4294967290. -/
theorem test_targets :
    resolveTarget 4294967290 .next = .ok 4294967291 ∧ resolveTarget 4294967290 (.after 10) = .ok 4 ∧
      resolveTarget 4294967290 (.at 3) = .ok 3 ∧ resolveTarget 4294967290 (.at 4294967290) = .error .late ∧
      resolveTarget 4294967290 (.at 4294967000) = .error .late ∧
      resolveTarget 4294967290 (.at 65529) = .ok 65529 ∧ resolveTarget 4294967290 (.at 65530) = .error .far := by
  decide

/-- Section 11.1: a gap of 3 passes against 20 with widths of 8 and 7; one of 8 with a width of 8 fails GAP (R14). -/
theorem test_gap_check : checkRecord wave 20 = none ∧ checkRecord { wave with gap := 8 } 20 = some .gap := by decide

/-- Section 11.1, step 9: START answers RUNNING with FN 1, and set 2, PENDING at 1, is applied. -/
theorem test_start :
    reply .p0 (after (.start .p0 0) busy) = some (.ok, [2, 0, 0, 0, 1]) ∧
      ((after (.start .p0 0) busy).leg .l1).record = wave ∧
      ((after (.start .p0 0) busy).port .p0).queue = [.setApplied 2 .g0 1, .groupState .g0 .started 1] := by decide

/-- Section 11.2, frame 44, tick 5: after three waiting ticks A becomes ACTIVE. -/
theorem test_tick_gap :
    (tickLeg false 20 5
      { State.reset.leg .l0 with
        record := wave, outA := { state := .waiting, count := 14, cut := false },
        outB := { state := .inactive, count := 2, cut := false } }).outA =
      { state := .active, count := 0, cut := false } := by decide

/-- A trip cancels the PENDING set, whose record precedes the TRIP record (R88). -/
theorem test_trip :
    reply .p2 (after (.trip .p2 1) busy) = some (.ok, [1, 0, 0, 0]) ∧
      ((after (.trip .p2 1) busy).port .p0).queue = [.setCancelled 2 .tripped, .trip .g0 .command] := by decide

/-- READ EVENT of an empty queue (R131). -/
theorem test_read_event_empty : reply .p0 (after (.readEvent .p0) up) = some (.queueEmpty, [0]) := by decide

/-- A release of select before the check byte records TRUNCATED and CUT (R151, R152). -/
theorem test_truncated : ((after (.selectReleased .p0 false) up).port .p0).prevResult = .truncated := by decide

/-- After power-on, start-up and the count of REFCLK the first record of each queue is CLOCK (RESTORED) (section 11.1). -/
theorem test_clock_restored :
    ((after .clockRestored (after .startUpComplete (after (.powerOn 2) State.reset))).port .p1).queue = [.clock true] := by
  decide

/-! ### Witnesses: the laws hold together in a state with leases and sets, in every run state but TRIPPED -/

theorem busy_tableLaw : TableLaw busy := by
  refine ⟨by decide, by decide, ?_, ?_, by decide, by decide, by decide, by decide⟩
  · exact all_ports _ (by decide)
  · exact all_ports _ (by decide)

/-- The laws of the set table read nothing but the table and the next id. -/
theorem tableLaw_of_same {s t : State} (h : TableLaw s) (hs : t.sets = s.sets) (hn : t.nextId = s.nextId) : TableLaw t := by
  obtain ⟨h1, h2, h3, h4, h5, h6, h7, h8⟩ := h
  unfold State.poolUsed at h2
  unfold State.openCount at h3
  unfold State.pendingCount State.doneCount at h4
  rw [← hs] at h1 h2 h3 h4 h5 h6 h8
  rw [← hn] at h7
  exact ⟨h1, h2, h3, h4, h5, h6, h7, h8⟩

theorem placed_tableLaw (run : RunState) (tick : Nat) (sync : SyncMode) : TableLaw (placed run tick sync busy) :=
  tableLaw_of_same busy_tableLaw rfl rfl

theorem busy_sets : ∀ c ∈ busy.sets, ∀ e ∈ c.edits, e.item = .leg .l0 ∧ c.owner = .p0 ∧ c.group = .g0 ∨
    e.item = .leg .l1 ∧ c.owner = .p0 ∧ c.group = .g0 ∨ e.item = .group .g0 ∧ c.owner = .p0 ∧ c.group = .g0 := by
  decide

theorem placed_leaseLaw (run : RunState) (tick : Nat) (sync : SyncMode) : LeaseLaw (placed run tick sync busy) := by
  intro c hc e he
  rcases busy_sets c hc e he with ⟨h, ho, hg⟩ | ⟨h, ho, hg⟩ | ⟨h, ho, hg⟩ <;> rw [h, ho, hg]
  · refine ⟨rfl, ?_, ?_⟩
    · intro l hl; cases hl; rfl
    · intro g hl; cases hl
  · refine ⟨rfl, ?_, ?_⟩
    · intro l hl; cases hl; rfl
    · intro g hl; cases hl
  · refine ⟨rfl, ?_, ?_⟩
    · intro l hl; cases hl
    · intro g hl; cases hl; rfl

theorem placed_pendingItemLaw (run : RunState) (tick : Nat) (sync : SyncMode) :
    PendingItemLaw (placed run tick sync busy) := by
  simp [PendingItemLaw, placed, busy, ChangeSet.isPending]

theorem busy_interlockLaw : InterlockLaw busy := all_legs _ (by decide)

theorem placed_interlockLaw (run : RunState) (tick : Nat) (sync : SyncMode) :
    InterlockLaw (placed run tick sync busy) := busy_interlockLaw

/-- G0 RUNNING at tick 3 of 20 with a tick waiting in the queue. -/
def moving : State := { placed .running 3 .none busy with pending := [.tick .g0] }

theorem moving_steps : ∃ t, step moving = .next t := ⟨_, rfl⟩

/-- A state that meets every law, with a step to take. -/
theorem witness_laws_kept : InterlockLaw moving ∧ QueueLaw moving ∧ TableLaw moving ∧ LeaseLaw moving ∧
    PendingItemLaw moving ∧ DistanceLaw moving ∧ TrippedLaw moving ∧ CauseLaw moving ∧ ClockLaw moving ∧
    TimerLaw moving ∧ PatternLaw moving ∧ ∃ t, step moving = .next t := by
  refine ⟨busy_interlockLaw, all_ports _ (by decide), tableLaw_of_same busy_tableLaw rfl rfl,
    placed_leaseLaw .running 3 .none, placed_pendingItemLaw .running 3 .none, ?_, ?_, all_groups _ (by decide),
    ⟨by decide, fun h => by cases h⟩, all_ports _ (by decide), ?_,
    moving_steps⟩
  · unfold DistanceLaw; decide
  · unfold TrippedLaw; decide
  · refine ⟨all_groups _ (by decide), ?_, all_legs _ (by decide)⟩
    intro c hc g t ht
    simp [moving, placed, busy] at hc
    rcases hc with rfl | rfl | rfl <;> simp [ChangeSet.edits] at ht
    simp [ht]

/-! ### Witnesses: states and operands that meet the hypotheses of each clause -/

/-- P0 in a transaction state of its own. -/
def inTxn (x : Txn) : State := up.modPort .p0 fun q => { q with txn := x }

/-- P0's queue. -/
def withQueue (es : List Event) : State := up.modPort .p0 fun q => { q with queue := es }

/-- The OPEN set of `busy` with another edit list. -/
def reopened (es : List Edit) : State :=
  { busy with sets := busy.sets.map fun c => if c.isOpen then { c with body := .opened es } else c }

/-- Twelve DONE sets, four for each port. -/
def full : State :=
  { leased with
    sets := (List.range 12).map fun n =>
      { id := n + 1, owner := if n % 3 = 0 then .p0 else if n % 3 = 1 then .p1 else .p2, group := .g0,
        body := .done 0 (.applied 0) } }

/-- One edit for an item. -/
def editOf : Item → Edit
  | .leg l => .leg l wave
  | .group g => .group g { period := 20, divider := 7, budget := 3 }

/-- A pool of 64 edits, P0's OPEN set without an edit of one item. -/
def crowded (i : Item) : State :=
  { leased with
    sets :=
      [{ id := 1, owner := .p0, group := .g0, body := .opened ((allItems.filter fun j => decide (j ≠ i)).map editOf) }] ++
      ((List.range 7).map fun n =>
        { id := n + 2, owner := if n < 4 then .p0 else .p1, group := .g0,
          body := .pending (allItems.map editOf) 1 (BitVec.ofNat 32 n) }) ++
      [{ id := 9, owner := .p1, group := .g0, body := .pending [editOf i] 1 8 }] }

theorem full_tableLaw : TableLaw full :=
  ⟨by decide, by decide, all_ports _ (by decide), all_ports _ (by decide), by decide, by decide, by decide, by decide⟩

theorem crowded_tableLaw : TableLaw (crowded (.leg .l0)) ∧ TableLaw (crowded (.group .g0)) :=
  ⟨⟨by decide, by decide, all_ports _ (by decide), all_ports _ (by decide), by decide, by decide, by decide, by decide⟩,
    ⟨by decide, by decide, all_ports _ (by decide), all_ports _ (by decide), by decide, by decide, by decide, by decide⟩⟩

theorem canTake_up (p : Port) : CanTake up p := by cases p <;> exact ⟨rfl, rfl⟩

theorem canTake_busy (p : Port) : CanTake busy p := by cases p <;> exact ⟨rfl, rfl⟩

theorem canTake_placed (run : RunState) (tick : Nat) (sync : SyncMode) (p : Port) :
    CanTake (placed run tick sync busy) p := by cases p <;> exact ⟨rfl, rfl⟩

theorem witness_StepRunsTheFrontCommand : moving.pending = [.tick .g0] := rfl

theorem witness_RequestsAreReadAsSent : commandPort (.seal .p1 2 0xFFFFFFFF) = some .p1 := rfl

theorem witness_CommandsAreAnsweredOrChangeNothing :
    commandPort (.claim .p1 0xFF) = some .p1 ∧ CanTake up .p1 ∧ ¬CanTake quiet .p1 :=
  ⟨rfl, canTake_up .p1, fun h => by cases h.2⟩

/-- A wrong CHK; CMD 0x00; IDENTIFY with an argument byte; a LEN of 16 and of 17; and a port that is DESELECTED. -/
theorem witness_RequestsThatReachNoBlock :
    let sum (bytes : List Byte) := (bytes.map BitVec.toNat).sum % 256
    CanTake up .p0 ∧ sum [0x01, 0x00, 0x00] ≠ 0 ∧
      (sum [0x00, 0x00, 0x00] = 0 ∧ commandLength 0x00 = none) ∧
      (sum [0x01, 0x01, 0x00, 0xFE] = 0 ∧ commandLength 0x01 = some 0 ∧ 0 ≠ (0x01 : Byte).toNat ∧
        ([0x00, 0xFE] : List Byte).length = (0x01 : Byte).toNat + 1) ∧
      ((16 : Byte).toNat ≤ 16 ∧ (List.replicate 17 (0 : Byte)).length = (16 : Byte).toNat + 1) ∧
      16 < (17 : Byte).toNat ∧ quiet.condition = .operating ∧ (quiet.port .p0).txn = .deselected :=
  ⟨canTake_up .p0, by decide⟩

/-- Every transaction state can stand in a port in OPERATING; and the part can be outside OPERATING. -/
theorem witness_ReleaseRecordsTheTransaction :
    (∀ x, (inTxn x).condition = .operating ∧ ((inTxn x).port .p0).txn = x) ∧ State.reset.condition ≠ .operating :=
  ⟨fun _ => ⟨rfl, rfl⟩, by decide⟩

theorem witness_ResetCommandsAreTaken :
    CanTake up .p2 ∧ CanTake up .p0 ∧ (2 : Byte).toNat = portNum .p2 ∧ (0 : Byte).toNat = portNum .p0 ∧
      up.supervisor = some .p2 ∧ up.supervisor ≠ some .p0 ∧ 2 < (3 : Byte).toNat ∧ Port.p0 ≠ .p2 :=
  ⟨canTake_up .p2, canTake_up .p0, by decide⟩

theorem witness_SelfResetTakesEffect :
    (inTxn (.response ⟨.ok, [0]⟩ .portReset)).condition = .operating ∧
      ((inTxn (.response ⟨.ok, [0]⟩ .portReset)).port .p0).txn = .response ⟨.ok, [0]⟩ .portReset := ⟨rfl, rfl⟩

theorem witness_DeviceResetTakesEffect :
    (inTxn (.response ⟨.ok, []⟩ .deviceReset)).condition = .operating ∧
      ((inTxn (.response ⟨.ok, []⟩ .deviceReset)).port .p0).txn = .response ⟨.ok, []⟩ .deviceReset ∧
      ∃ u v, exec .resetnAsserted (inTxn (.response ⟨.ok, []⟩ .deviceReset)) = .next u ∧
        exec (.deviceResetEffect .p0 true) u = .next v := ⟨rfl, rfl, _, _, rfl, rfl⟩

theorem witness_ReadEventReturnsThenRemoves :
    CanTake (withQueue [.clock true]) .p0 ∧ ((withQueue [.clock true]).port .p0).queue = [.clock true] ∧
      (up.port .p0).queue = [] ∧
      (let s := (withQueue [.clock true]).modPort .p0 fun q => { q with txn := .response ⟨.ok, []⟩ .readHead };
        s.condition = .operating ∧ (s.port .p0).txn = .response ⟨.ok, []⟩ .readHead ∧
          (s.port .p0).queue = [.clock true]) ∧
      ((inTxn (.response ⟨.queueEmpty, [0]⟩ (.readEmpty true))).port .p0).txn =
        .response ⟨.queueEmpty, [0]⟩ (.readEmpty true) :=
  ⟨⟨rfl, rfl⟩, rfl, rfl, ⟨rfl, rfl, rfl⟩, rfl⟩

theorem witness_NotifyMaskGovernsAttention : CanTake (withQueue [.clock true]) .p0 := ⟨rfl, rfl⟩

/-- A mask of 0; G0 held by P0 with L5 free below it; and L3 to G1 all free. -/
theorem witness_ClaimIsGrantedWhole :
    CanTake busy .p1 ∧ (0 : Byte) = 0 ∧
      (inMask 0x60 (.group .g0) = true ∧ busy.holder (.group .g0) = some .p0 ∧ Port.p0 ≠ .p1 ∧
        ∀ j : Item, j.num < 6 → inMask 0x60 j = true → busy.holder j = none ∨ busy.holder j = some .p1) ∧
      ((0xB8 : Byte) ≠ 0 ∧ ∀ i, inMask 0xB8 i = true → busy.holder i = none ∨ busy.holder i = some .p1) :=
  ⟨canTake_busy .p1, rfl, ⟨by decide, by decide, by decide, all_items _ (by decide)⟩, by decide, all_items _ (by decide)⟩

/-- A mask of 0; L3 not held with L0 to L2 held below it; L0 with an edit; and L2 with none. -/
theorem witness_ReleaseIsTakenWhole :
    CanTake busy .p0 ∧ (0 : Byte) = 0 ∧
      (inMask 0x0F (.leg .l3) = true ∧ busy.holder (.leg .l3) ≠ some .p0 ∧
        ∀ j : Item, j.num < 3 → inMask 0x0F j = true → busy.holder j = some .p0) ∧
      ((∀ i, inMask 0x01 i = true → busy.holder i = some .p0) ∧ inMask 0x01 (.leg .l0) = true ∧
        (∃ c ∈ busy.sets, c.owner = .p0 ∧ c.hasEdit (.leg .l0) = true) ∧
        ∀ j : Item, j.num < 0 → inMask 0x01 j = true → ∀ c ∈ busy.sets, c.owner = .p0 → c.hasEdit j = false) ∧
      ((0x04 : Byte) ≠ 0 ∧ (∀ i, inMask 0x04 i = true → busy.holder i = some .p0) ∧
        ∀ i, inMask 0x04 i = true → ∀ c ∈ busy.sets, c.owner = .p0 → c.hasEdit i = false) :=
  ⟨canTake_busy .p0, rfl, ⟨by decide, by decide, all_items _ (by decide)⟩,
    ⟨all_items _ (by decide), by decide, by decide, all_items _ (by decide)⟩,
    by decide, all_items _ (by decide), all_items _ (by decide)⟩

theorem witness_SeizeTakesTheItems :
    CanTake busy .p0 ∧ busy.supervisor ≠ some .p0 ∧ CanTake busy .p2 ∧ busy.supervisor = some .p2 ∧ (0xFF : Byte) ≠ 0 :=
  ⟨canTake_busy .p0, by decide, canTake_busy .p2, rfl, by decide⟩

/-- Item 8 and value 2; G1, which P0 does not hold; G0, which it holds. -/
theorem witness_SetFallbackReplacesTheField :
    CanTake busy .p0 ∧ 7 < (8 : Byte).toNat ∧ 1 < (2 : Byte).toNat ∧
      ((7 : Byte).toNat = (Item.group .g1).num ∧ busy.holder (.group .g1) ≠ some .p0) ∧
      ((6 : Byte).toNat = (Item.group .g0).num ∧ (1 : Byte).toNat ≤ 1 ∧ busy.holder (.group .g0) = some .p0) :=
  ⟨canTake_busy .p0, by decide⟩

theorem witness_SetLivenessSetsTheTimer :
    CanTake busy .p0 ∧ busy.supervisor ≠ some .p0 ∧ CanTake busy .p2 ∧ busy.supervisor = some .p2 ∧
      2 < (3 : Byte).toNat ∧ (2 : Byte).toNat = portNum .p2 :=
  ⟨canTake_busy .p0, by decide, canTake_busy .p2, by decide⟩

/-- P0's timer with time left, and at 0. -/
theorem witness_ExpiryFreesEverything :
    let spent := busy.modPort .p0 fun q => { q with timer := some 0 }
    busy.condition = .operating ∧ (busy.port .p0).timer ≠ some 0 ∧ spent.condition = .operating ∧
      (spent.port .p0).timer = some 0 := by decide

/-- Group 2; P0 with an OPEN set; P1 with none in a full table; and P1 with none in a table with room. -/
theorem witness_OpenSetOpensAnEmptySet :
    CanTake busy .p0 ∧ QueueLaw busy ∧ TableLaw busy ∧ 1 < (2 : Byte).toNat ∧ (1 : Byte).toNat = groupNum .g1 ∧
      (∃ c ∈ busy.sets, c.owner = .p0 ∧ c.isOpen = true) ∧
      (CanTake full .p1 ∧ QueueLaw full ∧ TableLaw full ∧ (∀ c ∈ full.sets, c.owner = .p1 → c.isOpen = false) ∧
        full.sets.length = 12) ∧
      ((∀ c ∈ busy.sets, c.owner = .p1 → c.isOpen = false) ∧ busy.sets.length < 12) :=
  ⟨canTake_busy .p0, all_ports _ (by decide), busy_tableLaw, by decide, by decide, by decide,
    ⟨⟨rfl, rfl⟩, all_ports _ (by decide), full_tableLaw, by decide, by decide⟩, by decide, by decide⟩

/-- L3, held by P0 in `busy`. -/
def farLeg : State := busy.modLeg .l3 fun v => { v with holder := some .p0 }

/-- Leg 6; no OPEN set; a leg not held; a leg of another group; a gap of 1024; a full pool; an edit that replaces one. -/
theorem witness_StageLegPlacesTheEdit :
    let raw : RawPattern := { mode := 2, polarity := 0, gap := 3, offsetA := 2, widthA := 8, offsetB := 0, widthB := 0 }
    CanTake busy .p0 ∧ TableLaw busy ∧ 5 < (6 : Byte).toNat ∧ (0 : Byte).toNat = legNum .l0 ∧
      (CanTake busy .p1 ∧ ∀ c ∈ busy.sets, c.owner = .p1 → c.isOpen = false) ∧
      (∃ c ∈ busy.sets, c.owner = .p0 ∧ c.isOpen = true ∧ busy.holder (.leg .l5) ≠ some .p0 ∧
        busy.holder (.leg .l0) = some .p0 ∧ (busy.leg .l0).group = c.group ∧ badPattern { raw with gap := 1024 } = true ∧
        badPattern raw = false ∧ c.hasEdit (.leg .l0) = true) ∧
      (CanTake farLeg .p0 ∧ TableLaw farLeg ∧ ∃ c ∈ farLeg.sets, c.owner = .p0 ∧ c.isOpen = true ∧
        farLeg.holder (.leg .l3) = some .p0 ∧ (farLeg.leg .l3).group ≠ c.group) ∧
      (CanTake (crowded (.leg .l0)) .p0 ∧ TableLaw (crowded (.leg .l0)) ∧ ∃ c ∈ (crowded (.leg .l0)).sets,
        c.owner = .p0 ∧ c.isOpen = true ∧ (crowded (.leg .l0)).holder (.leg .l0) = some .p0 ∧
          c.hasEdit (.leg .l0) = false ∧ (crowded (.leg .l0)).poolUsed = 64) :=
  ⟨canTake_busy .p0, busy_tableLaw, by decide, by decide, ⟨canTake_busy .p1, by decide⟩, by decide,
    ⟨⟨rfl, rfl⟩, tableLaw_of_same busy_tableLaw rfl rfl, by decide⟩, ⟨rfl, rfl⟩, crowded_tableLaw.1, by decide⟩

/-- G1, held by P0 in `busy`. -/
def farGroup : State := busy.modGroup .g1 fun v => { v with holder := some .p0 }

/-- Group 2; no OPEN set; G1 not held; G1 in a set for G0; a period of 3 and a divider of 8; a full pool; a period of 4. -/
theorem witness_StageGroupPlacesTheEdit :
    CanTake busy .p0 ∧ TableLaw busy ∧ 1 < (2 : Byte).toNat ∧ (0 : Byte).toNat = groupNum .g0 ∧
      (CanTake busy .p1 ∧ ∀ c ∈ busy.sets, c.owner = .p1 → c.isOpen = false) ∧
      (∃ c ∈ busy.sets, c.owner = .p0 ∧ c.isOpen = true ∧ busy.holder (.group .g1) ≠ some .p0 ∧
        busy.holder (.group .g0) = some .p0 ∧ Group.g0 = c.group ∧ (3 : Half).toNat < 4 ∧ 7 < (8 : Byte).toNat ∧
        4 ≤ (4 : Half).toNat ∧ (7 : Byte).toNat ≤ 7 ∧ busy.poolUsed < 64) ∧
      (CanTake farGroup .p0 ∧ TableLaw farGroup ∧ ∃ c ∈ farGroup.sets, c.owner = .p0 ∧ c.isOpen = true ∧
        farGroup.holder (.group .g1) = some .p0 ∧ Group.g1 ≠ c.group) ∧
      (CanTake (crowded (.group .g0)) .p0 ∧ TableLaw (crowded (.group .g0)) ∧ ∃ c ∈ (crowded (.group .g0)).sets,
        c.owner = .p0 ∧ c.isOpen = true ∧ (crowded (.group .g0)).holder (.group .g0) = some .p0 ∧
          c.hasEdit (.group .g0) = false ∧ (crowded (.group .g0)).poolUsed = 64) :=
  ⟨canTake_busy .p0, busy_tableLaw, by decide, by decide, ⟨canTake_busy .p1, by decide⟩, by decide,
    ⟨⟨rfl, rfl⟩, tableLaw_of_same busy_tableLaw rfl rfl, by decide⟩, ⟨rfl, rfl⟩, crowded_tableLaw.2, by decide⟩

/-- Item 8; no OPEN set; an OPEN set with no edit of L1 and one of L0. -/
theorem witness_UnstageAndAbandonFreeEdits :
    CanTake busy .p0 ∧ TableLaw busy ∧ 7 < (8 : Byte).toNat ∧
      (CanTake busy .p1 ∧ ∀ c ∈ busy.sets, c.owner = .p1 → c.isOpen = false) ∧ (7 : Byte).toNat ≤ 7 ∧
      ∃ c ∈ busy.sets, c.owner = .p0 ∧ c.isOpen = true ∧ (1 : Byte).toNat = (Item.leg .l1).num ∧
        c.hasEdit (.leg .l1) = false ∧ (0 : Byte).toNat = (Item.leg .l0).num ∧ c.hasEdit (.leg .l0) = true :=
  ⟨canTake_busy .p0, busy_tableLaw, by decide, ⟨canTake_busy .p1, by decide⟩, by decide, by decide⟩

/-- No set 0; set 1, OPEN; set 3, DONE; set 2, PENDING. -/
theorem witness_AckAndWithdrawRemoveSets :
    CanTake busy .p0 ∧ TableLaw busy ∧ (∀ c ∈ busy.sets, c.id = (0 : Byte).toNat → c.owner ≠ .p0) ∧
      (∃ c ∈ busy.sets, c.id = (1 : Byte).toNat ∧ c.owner = .p0 ∧ c.isDone = false ∧ c.isPending = false) ∧
      (∃ c ∈ busy.sets, c.id = (3 : Byte).toNat ∧ c.owner = .p0 ∧ c.isDone = true) ∧
      ∃ c ∈ busy.sets, c.id = (2 : Byte).toNat ∧ c.owner = .p0 ∧ c.isPending = true :=
  ⟨canTake_busy .p0, busy_tableLaw, by decide⟩

/-- R73's table at its edges. -/
theorem witness_TargetsResolve :
    1 ≤ 65535 ∧ 65535 ≤ 65535 ∧ ((65529 : Frame) - 4294967290).toNat = 65535 ∧
      ((65530 : Frame) - 4294967290).toNat = 65536 ∧ ((4294967290 : Frame) - 4294967290).toNat = 0 ∧
      ((2147483642 : Frame) - 4294967290).toNat = 2 ^ 31 := by decide

theorem witness_SealMakesTheSetPending :
    CanTake busy .p0 ∧ TableLaw busy ∧ ∃ c ∈ busy.sets, c.owner = .p0 ∧ c.isOpen = true ∧
      sealArg 1 65535 = some (.after 65535) ∧ c.edits ≠ [] ∧ (busy.group c.group).run ≠ .tripped ∧
      busy.pendingCount .p0 + busy.doneCount .p0 < 4 ∧
      (∀ k ∈ busy.sets, k.isPending = true → ∀ e ∈ c.edits, k.hasEdit e.item = false) ∧
      resolveTarget (busy.group c.group).fn (.after 65535) = .ok 65535 ∧ busy.validate c.group c.edits = none :=
  ⟨canTake_busy .p0, busy_tableLaw, by decide⟩

/-- P0 with an OPEN set and four others. -/
def limited : State :=
  { busy with
    sets := busy.sets ++
      [{ id := 4, owner := .p0, group := .g0, body := .done 0 (.applied 0) },
       { id := 5, owner := .p0, group := .g0, body := .done 0 (.applied 0) }] }

theorem reopened_tableLaw : TableLaw (reopened []) ∧ TableLaw (reopened [.leg .l1 wave]) ∧
    TableLaw (reopened [.leg .l0 { wave with gap := 8 }]) ∧ TableLaw limited :=
  ⟨⟨by decide, by decide, all_ports _ (by decide), all_ports _ (by decide), by decide, by decide, by decide, by decide⟩,
    ⟨by decide, by decide, all_ports _ (by decide), all_ports _ (by decide), by decide, by decide, by decide, by decide⟩,
    ⟨by decide, by decide, all_ports _ (by decide), all_ports _ (by decide), by decide, by decide, by decide, by decide⟩,
    ⟨by decide, by decide, all_ports _ (by decide), all_ports _ (by decide), by decide, by decide, by decide, by decide⟩⟩

/-- Form 3; AFTER 0 and AFTER 65536; no OPEN set; an empty set; a TRIPPED group; four sets; an item that is PENDING; a target
that is the frame under way; a set that fails GAP. -/
theorem witness_SealRefusesInOrder :
    CanTake busy .p0 ∧ TableLaw busy ∧ 2 < (3 : Byte).toNat ∧ (0 : Frame).toNat = 0 ∧ 65535 < (65536 : Frame).toNat ∧
      sealArg 2 0 = some (.at 0) ∧ (CanTake busy .p1 ∧ ∀ c ∈ busy.sets, c.owner = .p1 → c.isOpen = false) ∧
      (∀ es, CanTake (reopened es) .p0) ∧
      (TableLaw (reopened []) ∧ ∃ c ∈ (reopened []).sets, c.owner = .p0 ∧ c.isOpen = true ∧ c.edits = []) ∧
      (CanTake (placed .tripped 0 .none busy) .p0 ∧ TableLaw (placed .tripped 0 .none busy) ∧
        ∃ c ∈ (placed .tripped 0 .none busy).sets,
        c.owner = .p0 ∧ c.isOpen = true ∧ c.edits ≠ [] ∧
          ((placed .tripped 0 .none busy).group c.group).run = .tripped) ∧
      (CanTake limited .p0 ∧ TableLaw limited ∧ limited.pendingCount .p0 + limited.doneCount .p0 = 4) ∧
      (TableLaw (reopened [.leg .l1 wave]) ∧ ∃ c ∈ (reopened [.leg .l1 wave]).sets,
        c.owner = .p0 ∧ c.isOpen = true ∧ c.edits = [] ++ [.leg .l1 wave] ∧
        ((reopened [.leg .l1 wave]).pendingSetOf (.leg .l1)).isSome = true) ∧
      (∃ c ∈ busy.sets, c.owner = .p0 ∧ c.isOpen = true ∧ c.edits ≠ [] ∧
        (∀ e ∈ c.edits, busy.pendingSetOf e.item = none) ∧
        resolveTarget (busy.group c.group).fn (.at 0) = .error .late) ∧
      TableLaw (reopened [.leg .l0 { wave with gap := 8 }]) ∧
      ∃ c ∈ (reopened [.leg .l0 { wave with gap := 8 }]).sets, c.owner = .p0 ∧ c.isOpen = true ∧
        (∀ e ∈ c.edits, (reopened [.leg .l0 { wave with gap := 8 }]).pendingSetOf e.item = none) ∧
        (reopened [.leg .l0 { wave with gap := 8 }]).validate c.group c.edits = some (.gap, .l0) ∧
        (c.edits.map Edit.item).Nodup :=
  ⟨canTake_busy .p0, busy_tableLaw, by decide, by decide, by decide, by decide, ⟨canTake_busy .p1, by decide⟩,
    fun _ => ⟨rfl, rfl⟩, ⟨reopened_tableLaw.1, by decide⟩, ⟨canTake_placed _ _ _ _, placed_tableLaw _ _ _, by decide⟩,
    ⟨⟨rfl, rfl⟩, reopened_tableLaw.2.2.2, by decide⟩, ⟨reopened_tableLaw.2.1, by decide⟩, by decide,
    reopened_tableLaw.2.2.1, by decide⟩

/-- The last tick of a frame, a window at the last offset, and a record of each mode. -/
theorem witness_WindowsGiveTheDemands :
    19 < 20 ∧ (19 < 20 ∧ covers 20 19 2 0 = true) ∧ wave.mode = .complementary ∧ wave.offsetA < 20 ∧
      { wave with mode := .off }.mode = .off ∧ { wave with mode := .single }.mode = .single ∧
      { wave with mode := .exclusive }.mode = .exclusive ∧ wave.offsetB < 20 := by decide

/-- RANGE at an offset of P; OFF; GAP; OVERLAP; a gap one more than the distance; a gap equal to both distances. -/
theorem witness_ChecksFailAsStated :
    let two (gap wb : Nat) : PatternRecord := { wave with mode := .exclusive, gap := gap, offsetB := 12, widthB := wb }
    0 < 20 ∧ 20 ≤ { wave with offsetA := 20 }.offsetA ∧
      (¬(20 ≤ wave.offsetA ∨ 20 < wave.widthA ∨ 20 ≤ wave.offsetB ∨ 20 < wave.widthB) ∧ wave.mode = .complementary) ∧
      ({ wave with mode := .off }.mode = .off) ∧
      ((two 2 0).mode = .exclusive ∧ (two 2 0).widthB = 0) ∧
      (∃ n, n < 20 ∧ covers 20 2 8 n = true ∧ covers 20 9 3 n = true) ∧
      ((12 - 2 - 8 : Int) % 20 < 3) ∧ ((2 : Int) ≤ (12 - 2 - 8) % 20 ∧ (2 : Int) ≤ (2 - 12 - 8) % 20) := by
  refine ⟨by decide, by decide, by decide, by decide, by decide, ⟨9, by decide⟩, by decide, by decide⟩

theorem witness_CheckedRecordsDemandOneOutput : 19 < 20 ∧ checkRecord wave 20 = none := by decide

/-- The last tick but one, so that tick 19 begins. -/
theorem witness_TickEvaluatesTheLegs :
    let s := placed .halting 18 .none busy
    s.condition = .operating ∧ (s.group .g0).run = .halting ∧ (s.group .g0).tick + 1 < (s.group .g0).timing.period ∧
      InterlockLaw s :=
  ⟨rfl, rfl, by decide, placed_interlockLaw _ _ _⟩

theorem witness_StartBeginsAFrame :
    let s := placed .stopped 0 .none busy
    CanTake s .p0 ∧ TableLaw s ∧ LeaseLaw s ∧ PendingItemLaw s ∧ InterlockLaw s ∧ (0 : Byte).toNat = groupNum .g0 ∧
      s.holder (.group .g0) = some .p0 ∧ (s.group .g0).run = .stopped ∧ s.monitor = .present ∧
      (s.group .g0).sync ≠ .startRise ∧ (s.group .g0).sync ≠ .startFall :=
  ⟨canTake_placed _ _ _ _, placed_tableLaw _ _ _, placed_leaseLaw _ _ _, placed_pendingItemLaw _ _ _,
    placed_interlockLaw _ _ _, by decide⟩

/-- Group 2; a port that does not hold G0; and the holder in every run state, with and without REFCLK. -/
theorem witness_StartInOtherStates :
    1 < (2 : Byte).toNat ∧ (0 : Byte).toNat = groupNum .g0 ∧ busy.holder (.group .g0) ≠ some .p1 ∧
      (∀ run sync, CanTake (placed run 0 sync busy) .p0 ∧ (placed run 0 sync busy).holder (.group .g0) = some .p0 ∧
        ((placed run 0 sync busy).group .g0).run = run ∧ ((placed run 0 sync busy).group .g0).sync = sync ∧
        (placed run 0 sync busy).monitor = .present) ∧
      (CanTake { busy with monitor := .lost 0 } .p0 ∧ (busy.group .g0).run = .stopped) :=
  ⟨by decide, by decide, by decide, fun _ _ => ⟨⟨rfl, rfl⟩, rfl, rfl, rfl, rfl⟩, ⟨rfl, rfl⟩, rfl⟩

/-- Group 2 and form 2; a port that neither holds G0 nor is the supervisor; the holder and the supervisor in every state. -/
theorem witness_StopByStateAndForm :
    1 < (2 : Byte).toNat ∧ (0 : Byte).toNat = groupNum .g0 ∧ (1 : Byte).toNat ≤ 1 ∧
      (CanTake busy .p1 ∧ busy.holder (.group .g0) ≠ some .p1 ∧ busy.supervisor ≠ some .p1) ∧
      ∀ run, CanTake (placed run 5 .none busy) .p2 ∧ (placed run 5 .none busy).supervisor = some .p2 ∧
        (placed run 5 .none busy).holder (.group .g0) = some .p0 ∧ ((placed run 5 .none busy).group .g0).run = run :=
  ⟨by decide, by decide, by decide, ⟨canTake_busy .p1, by decide, by decide⟩, fun _ => ⟨⟨rfl, rfl⟩, rfl, rfl, rfl⟩⟩

theorem witness_ConfigureReplacesBothSettings :
    (1 < (2 : Byte).toNat ∧ 5 < (6 : Byte).toNat) ∧
      ((0 : Byte).toNat = groupNum .g0 ∧ syncByte .resyncBoth = 5 ∧ stopByte .hold = 1) ∧
      (CanTake busy .p1 ∧ busy.holder (.group .g0) ≠ some .p1) ∧
      ((placed .armed 0 .startRise busy).group .g0).run ≠ .stopped ∧
      CanTake busy .p0 ∧ busy.holder (.group .g0) = some .p0 ∧ (busy.group .g0).run = .stopped :=
  ⟨by decide, by decide, ⟨canTake_busy .p1, by decide⟩, by decide, canTake_busy .p0, by decide⟩

/-- Leg 6 and group 2; L0 with an edit; a running group; L5, of a stopped group, with no edit. -/
theorem witness_AssignLegMovesTheLeg :
    (CanTake busy .p0 ∧ busy.supervisor ≠ some .p0) ∧ (CanTake busy .p2 ∧ busy.supervisor = some .p2) ∧
      (5 < (6 : Byte).toNat ∧ 1 < (2 : Byte).toNat) ∧
      ((0 : Byte).toNat = legNum .l0 ∧ ∃ c ∈ busy.sets, c.hasEdit (.leg .l0) = true) ∧
      ((5 : Byte).toNat = legNum .l5 ∧ (0 : Byte).toNat = groupNum .g0 ∧
        ∀ c ∈ busy.sets, c.hasEdit (.leg .l5) = false) ∧
      ((placed .running 0 .none busy).group .g0).run ≠ .stopped ∧
      (busy.group (busy.leg .l5).group).run = .stopped ∧ (busy.group .g0).run = .stopped :=
  ⟨⟨canTake_busy .p0, by decide⟩, ⟨canTake_busy .p2, by decide⟩, by decide⟩

theorem witness_FallbackHaltHaltsARunningGroup :
    let s := (placed .running 3 .none busy).modGroup .g0 fun v => { v with haltNotices := 1 }
    s.condition = .operating ∧ 0 < (s.group .g0).haltNotices ∧ (s.group .g0).run = .running := by decide

/-- G0 at its last tick with a budget and a remaining count of 1. -/
def lastFrame (run : RunState) (tick budget left : Nat) (sync : SyncMode) : State :=
  (placed run tick sync busy).modGroup .g0 fun v =>
    { v with timing := { v.timing with budget := budget }, remaining := left }

/-- G0 RUNNING at its last tick, its next frame one at which no set is due. -/
def plainFrame : State := (placed .running 19 .none busy).modGroup .g0 fun v => { v with fn := 5 }

/-- Set 2 of `busy`. -/
def dueSet : ChangeSet :=
  { id := 2, owner := .p0, group := .g0,
    body := .pending [.leg .l1 wave, .group .g0 { period := 20, divider := 7, budget := 3 }] 1 1 }

/-- Set 2 of `busy`, applied. -/
def appliedSet : ChangeSet := { dueSet with body := .done 1 (.applied 1) }

theorem leaseLaw_of_same {s t : State} (h : LeaseLaw s) (hs : t.sets = s.sets) (hh : ∀ i, t.holder i = s.holder i)
    (hl : ∀ l, (t.leg l).group = (s.leg l).group) : LeaseLaw t := by
  intro c hc e he
  rw [hs] at hc
  obtain ⟨h1, h2, h3⟩ := h c hc e he
  exact ⟨(hh _).trans h1, fun l hi => (hl l).trans (h2 l hi), h3⟩

theorem lastFrame_laws (run : RunState) (tick budget left : Nat) (sync : SyncMode) :
    TableLaw (lastFrame run tick budget left sync) ∧ LeaseLaw (lastFrame run tick budget left sync) ∧
      PendingItemLaw (lastFrame run tick budget left sync) ∧ InterlockLaw (lastFrame run tick budget left sync) :=
  ⟨tableLaw_of_same busy_tableLaw rfl rfl,
    leaseLaw_of_same (placed_leaseLaw run tick sync) rfl (fun i => by rcases i with l | g <;> [rfl; cases g <;> rfl])
      (fun _ => rfl),
    placed_pendingItemLaw run tick sync,
    busy_interlockLaw⟩

theorem lastFrame_ends (run : RunState) (budget left : Nat) :
    EndsFrame .g0 (.frameEnd .g0) (lastFrame run 19 budget left .none) (clocked (lastFrame run 19 budget left .none)) ∧
      EndsFrame .g0 (.syncEdge .g0 true) (lastFrame run 4 budget left .resyncRise)
        (synced .g0 true (lastFrame run 4 budget left .resyncRise)) :=
  ⟨.inl ⟨rfl, show 20 ≤ 19 + 1 by decide, rfl⟩,
    .inr ⟨show 4 ≤ 4 by decide, true, rfl, Bool.false_ne_true, .inl ⟨rfl, rfl⟩, rfl⟩⟩

/-- G0 RUNNING at its last tick with one set due, whose period of 4 the active record of L1 does not fit. -/
def misfit : State :=
  let s := placed .running 19 .none (busy.modLeg .l1 fun v => { v with record := wave })
  { s with
    sets :=
      [{ id := 2, owner := .p0, group := .g0,
         body := .pending [.group .g0 { period := 4, divider := 0, budget := 3 }] 1 1 }] }

/-- The last tick of a frame and tick 4 at a resync edge; a budget that ends; HALTING; RUNNING with a set due that edits the
group and is applied, with one that fails, and with none due. -/
theorem witness_FrameEndsStopOrStart :
    (∀ run budget left, EndsFrame .g0 (.frameEnd .g0) (lastFrame run 19 budget left .none)
        (clocked (lastFrame run 19 budget left .none)) ∧
      EndsFrame .g0 (.syncEdge .g0 true) (lastFrame run 4 budget left .resyncRise)
        (synced .g0 true (lastFrame run 4 budget left .resyncRise))) ∧
    (∀ run tick budget left sync, (lastFrame run tick budget left sync).condition = .operating ∧
      TableLaw (lastFrame run tick budget left sync) ∧ LeaseLaw (lastFrame run tick budget left sync) ∧
      PendingItemLaw (lastFrame run tick budget left sync) ∧ InterlockLaw (lastFrame run tick budget left sync) ∧
      ((lastFrame run tick budget left sync).group .g0).run = run ∧
      ((lastFrame run tick budget left sync).group .g0).tick = tick ∧
      ((lastFrame run tick budget left sync).group .g0).timing.period = 20 ∧
      ((lastFrame run tick budget left sync).group .g0).timing.budget = budget ∧
      ((lastFrame run tick budget left sync).group .g0).remaining = left ∧
      ((lastFrame run tick budget left sync).group .g0).sync = sync) ∧
      (1 ≠ 0 ∧ 1 - 1 = 0) ∧ ¬(2 ≠ 0 ∧ 2 - 1 = 0) ∧
      (∃ x ∈ misfit.sets.zip (after (.frameEnd .g0) misfit).sets,
        dueAt .g0 1 x.1 = true ∧ x.1.hasEdit (.group .g0) = true ∧ x.2.wasApplied = false) ∧
      (∀ k ∈ plainFrame.sets, dueAt .g0 ((plainFrame.group .g0).fn + 1) k = true → k.hasEdit (.group .g0) = false) ∧
      ∃ k d, (k, d) ∈ (lastFrame .running 19 0 0 .none).sets.zip
          (after (.frameEnd .g0) (lastFrame .running 19 0 0 .none)).sets ∧
        dueAt .g0 1 k = true ∧ d.wasApplied = true ∧ k.hasEdit (.group .g0) = true := by
  refine ⟨lastFrame_ends, ?_, by decide, by decide, by decide, by decide, ?_⟩
  · intro run tick budget left sync
    obtain ⟨h1, h2, h3, h4⟩ := lastFrame_laws run tick budget left sync
    exact ⟨rfl, h1, h2, h3, h4, rfl, rfl, rfl, rfl, rfl, rfl⟩
  · exact ⟨dueSet, appliedSet, by decide⟩

/-- ARMED with the selected edge; RUNNING at tick 3 with a resync mode, too early for it; and either level recognised. -/
theorem witness_SyncEdgesStartOrAreIgnored :
    (∀ run tick sync, (placed run tick sync busy).condition = .operating ∧ TableLaw (placed run tick sync busy) ∧
      LeaseLaw (placed run tick sync busy) ∧ PendingItemLaw (placed run tick sync busy) ∧
      InterlockLaw (placed run tick sync busy) ∧ ((placed run tick sync busy).group .g0).run = run ∧
      ((placed run tick sync busy).group .g0).tick = tick ∧ ((placed run tick sync busy).group .g0).sync = sync ∧
      ((placed run tick sync busy).syncInput .g0).level ≠ true ∧
      ((placed run tick sync busy).syncInput .g0).level = false) ∧
      startSelects .startRise true ∧ ¬startSelects .startRise false ∧ ¬resyncSelects .none true ∧ 3 ≤ 3 :=
  ⟨fun _ _ _ => ⟨rfl, placed_tableLaw _ _ _, placed_leaseLaw _ _ _, placed_pendingItemLaw _ _ _, busy_interlockLaw, rfl,
    rfl, rfl, Bool.false_ne_true, rfl⟩, by unfold startSelects resyncSelects; decide⟩

/-- A START from rest; the selected edge in ARMED; the last tick with no budget and with a budget that does not end; and a
resync edge: in each, set 2 alone is due. -/
theorem witness_LoneDueSetIsValidated :
    StartsFrame .g0 (.start .p0 0) (lastFrame .stopped 0 0 0 .none) ∧
      StartsFrame .g0 (.syncEdge .g0 true) (lastFrame .armed 0 0 0 .startRise) ∧
      StartsFrame .g0 (.frameEnd .g0) (lastFrame .running 19 0 0 .none) ∧
      StartsFrame .g0 (.frameEnd .g0) (lastFrame .running 19 3 2 .none) ∧
      StartsFrame .g0 (.syncEdge .g0 true) (lastFrame .running 4 0 0 .resyncRise) ∧
      ∀ run tick budget left sync,
        let s := lastFrame run tick budget left sync
        s.condition = .operating ∧ TableLaw s ∧
          ∃ c ∈ s.sets, ∀ k ∈ s.sets, dueAt .g0 ((s.group .g0).fn + 1) k = true ↔ k = c :=
  ⟨.inl ⟨.p0, 0, rfl, rfl, rfl, rfl, rfl, rfl, by decide, by decide⟩,
    .inr (.inl ⟨true, rfl, by decide, rfl, .inl ⟨rfl, rfl⟩⟩),
    .inr (.inr ⟨⟨_, (lastFrame_ends .running 0 0).1⟩, rfl, .inl rfl⟩),
    .inr (.inr ⟨⟨_, (lastFrame_ends .running 3 2).1⟩, rfl, .inr (by decide)⟩),
    .inr (.inr ⟨⟨_, (lastFrame_ends .running 0 0).2⟩, rfl, .inl rfl⟩),
    fun run tick budget left sync => ⟨rfl, (lastFrame_laws run tick budget left sync).1, dueSet,
      show dueSet ∈ busy.sets by decide, show ∀ k ∈ busy.sets, dueAt .g0 (0 + 1) k = true ↔ k = dueSet by decide⟩⟩

theorem witness_TripCommandTrips :
    InterlockLaw busy ∧ (CanTake busy .p0 ∧ busy.supervisor ≠ some .p0) ∧ (CanTake busy .p2 ∧ busy.supervisor = some .p2) ∧
      3 < (4 : Byte).toNat ∧ (3 : Byte) ≠ 0 ∧ (3 : Byte).toNat ≤ 3 :=
  ⟨busy_interlockLaw, ⟨canTake_busy .p0, by decide⟩, ⟨canTake_busy .p2, rfl⟩, by decide⟩

/-- G1, not TRIPPED; G0, TRIPPED with an input ASSERTED, and with none. -/
theorem witness_ClearTripRestsTheGroup :
    let held := tripped.modInput .trip1 fun v => { v with filter := .asserted }
    (CanTake tripped .p0 ∧ tripped.supervisor ≠ some .p0) ∧ (CanTake tripped .p2 ∧ tripped.supervisor = some .p2) ∧
      1 < (2 : Byte).toNat ∧ ((1 : Byte).toNat = groupNum .g1 ∧ (tripped.group .g1).run ≠ .tripped) ∧
      (CanTake held .p2 ∧ (held.group .g0).run = .tripped ∧ (held.input .trip1).mask.get .g0 = true ∧
        (held.input .trip1).filter = .asserted) ∧
      ((tripped.group .g0).run = .tripped ∧ (tripped.input .trip0).filter ≠ .asserted ∧
        (tripped.input .trip1).filter ≠ .asserted ∧ (tripped.group .g0).causes.clock ≠ true) := by
  unfold CanTake
  decide

/-- An input in a filter state. -/
def filtered (f : Filter) (time : Nat) : State :=
  busy.modInput .trip1 fun v => { v with filter := f, filterTime := time }

theorem witness_MapTripReplacesTheMap :
    (∀ f, CanTake (filtered f 2) .p2 ∧ InterlockLaw (filtered f 2) ∧ (filtered f 2).supervisor = some .p2 ∧
      ((filtered f 2).input .trip1).filter = f) ∧
      (CanTake busy .p0 ∧ busy.supervisor ≠ some .p0) ∧ 1 < (2 : Byte).toNat ∧ 3 < (4 : Byte).toNat ∧
      (1 : Byte).toNat = inputNum .trip1 ∧ (3 : Byte).toNat ≤ 3 :=
  ⟨fun _ => ⟨⟨rfl, rfl⟩, busy_interlockLaw, rfl, rfl⟩, ⟨canTake_busy .p0, by decide⟩, by decide⟩

/-- Leg 6; both levels active; and every run state of the leg's group. -/
theorem witness_SetSafeReplacesTheValues :
    (CanTake busy .p0 ∧ busy.supervisor ≠ some .p0) ∧
      (5 < (6 : Byte).toNat ∧ 1 < (2 : Byte).toNat ∧ (1 : Byte) = 1) ∧
      (∀ run, CanTake (placed run 0 .none busy) .p2 ∧ (placed run 0 .none busy).supervisor = some .p2 ∧
        ((placed run 0 .none busy).group ((placed run 0 .none busy).leg .l2).group).run = run) ∧
      ((2 : Byte).toNat = legNum .l2 ∧ (1 : Byte).toNat ≤ 1 ∧ (0 : Byte).toNat ≤ 1 ∧ ¬((1 : Byte) = 1 ∧ (0 : Byte) = 1)) :=
  ⟨⟨canTake_busy .p0, by decide⟩, by decide, fun _ => ⟨⟨rfl, rfl⟩, rfl, rfl⟩, by decide⟩

/-- Every filter state with every filter time, at a sample and between two: low times that have reached it and that have
not. -/
theorem witness_TripInputsQualifyAndTrip :
    2 ≤ 2 ∧ 1 < 2 ∧ ∀ f time tenths,
      let s := { filtered f time with hkoTenths := tenths }
      s.condition = .operating ∧ InterlockLaw s ∧ s.hkoTenths = tenths ∧ (s.input .trip1).filter = f ∧
        (s.input .trip1).filterTime = time :=
  ⟨by decide, by decide, fun _ _ _ => ⟨rfl, busy_interlockLaw, rfl, rfl, rfl⟩⟩

/-- R166: between two samples TRIP_INPUT_LOW moves the pin alone; the sample finds it, and its row begins QUALIFYING. -/
theorem test_trip_row_between_samples :
    let s := after (.tripInputLow .trip1) { filtered .quiet 1 with hkoTenths := 8 }
    (s.input .trip1).filter = .quiet ∧ s.dueSample .trip1 = some (.tripInputLow .trip1) ∧
      ((after (.tripInputLow .trip1) { s with hkoTenths := 0 }).input .trip1).filter = .qualifying 0 := by decide

/-- An output that waits for its safe level. -/
def waits (a b : Bool) : State :=
  busy.modLeg .l0 fun v =>
    { v with
      safeA := a, safeB := b, safeWait := some 0
      outA := { v.outA with state := if a then .waiting else .inactive }
      outB := { v.outB with state := if b then .waiting else .inactive } }

theorem witness_SafeWaitEndsInActive :
    (busy.condition = .operating ∧ InterlockLaw busy ∧ (busy.leg .l0).safeWait ≠ some 0) ∧
    (let s := waits true false;
      s.condition = .operating ∧ InterlockLaw s ∧ (s.leg .l0).safeWait = some 0 ∧ (s.leg .l0).safeA = true ∧
        (s.leg .l0).outA.state = .waiting ∧ (s.leg .l0).outB.state ≠ .active) ∧
    (let s := waits false true;
      s.condition = .operating ∧ InterlockLaw s ∧ (s.leg .l0).safeWait = some 0 ∧ (s.leg .l0).safeB = true ∧
        (s.leg .l0).outB.state = .waiting ∧ (s.leg .l0).outA.state ≠ .active) :=
  ⟨⟨rfl, busy_interlockLaw, by decide⟩, ⟨rfl, all_legs _ (by decide), by decide⟩, rfl, all_legs _ (by decide), by decide⟩

theorem witness_ClockMonitorTripsAndRestores :
    busy.condition = .operating ∧ InterlockLaw busy ∧ busy.monitor = .present ∧
      { busy with monitor := .lost 99 }.monitor = .lost 99 ∧ InterlockLaw { busy with monitor := .lost 99 } :=
  ⟨rfl, busy_interlockLaw, rfl, rfl, busy_interlockLaw⟩

theorem witness_IdentifyAndPortStatus :
    CanTake busy .p0 ∧ 2 < (3 : Byte).toNat ∧ (2 : Byte).toNat = portNum .p2 ∧ Port.p2 ≠ .p0 ∧
      busy.supervisor ≠ some .p0 ∧ CanTake busy .p2 ∧ busy.supervisor = some .p2 :=
  ⟨canTake_busy .p0, by decide, by decide, by decide, by decide, canTake_busy .p2, rfl⟩

/-- Item 8; a leg; a group; an item with no PENDING edit; and L1, with one. -/
theorem witness_ReadActiveAndReadPending :
    CanTake busy .p0 ∧ 7 < (8 : Byte).toNat ∧ (5 : Byte).toNat = legNum .l5 ∧ (7 : Byte).toNat = 6 + groupNum .g1 ∧
      ((0 : Byte).toNat = (Item.leg .l0).num ∧ ∀ c ∈ busy.sets, c.isPending = true → c.hasEdit (.leg .l0) = false) ∧
      ((1 : Byte).toNat = (Item.leg .l1).num ∧ TableLaw busy ∧ PendingItemLaw busy ∧
        ∃ c ∈ busy.sets, c.isPending = true ∧ ∃ e ∈ c.edits, e.item = .leg .l1) :=
  ⟨canTake_busy .p0, by decide, by decide, by decide, by decide, by decide, busy_tableLaw,
    placed_pendingItemLaw .stopped 0 .none, by decide⟩

theorem witness_ReadOutputsGivesThePins : CanTake busy .p0 := canTake_busy .p0

/-- No set 0; and a set of P0 in each state. -/
theorem witness_ReadLeasesAndSetStatus :
    CanTake busy .p0 ∧ TableLaw busy ∧ (∀ c ∈ busy.sets, c.id = (0 : Byte).toNat → c.owner ≠ .p0) ∧
      (∃ c ∈ busy.sets, c.id = (1 : Byte).toNat ∧ c.owner = .p0 ∧ c.isOpen = true) ∧
      (∃ c ∈ busy.sets, c.id = (2 : Byte).toNat ∧ c.owner = .p0 ∧ c.isPending = true) ∧
      ∃ c ∈ busy.sets, c.id = (3 : Byte).toNat ∧ c.owner = .p0 ∧ c.isDone = true :=
  ⟨canTake_busy .p0, busy_tableLaw, by decide⟩

theorem witness_PowerMovesTheCondition :
    State.reset.condition = .reset ∧ (after (.powerOn 3) State.reset).condition = .startUp := by decide

/-- P1 answering IDENTIFY, its first response bit placed. -/
def answering : State :=
  up.modPort .p1 fun q => { q with
    txn := .response ⟨.ok, [0x57]⟩ .none
    line := { q.line with request := [0x01, 0x00, 0xFF], placed := 25 } }

/-- P1 with seven bits of 0xFF sampled behind two bytes. -/
def sevenBits : State :=
  up.modPort .p1 fun q => { q with line := { q.line with request := [0x01, 0x00], bits := List.replicate 7 true } }

/-- G0 RUNNING in tick 9, which the next edge of REFCLK ends, with the second sample of a rising edge of SYNC0. -/
def atResync : State := { placed .running 9 .resyncRise busy with syncs := ⟨⟨true, true, false⟩, ⟨false, false, false⟩⟩ }

theorem atResync_rows : tickRow atResync .g0 (.tick .g0) ∧ resyncRow atResync .g0 :=
  ⟨⟨.inl rfl, by decide, .inl ⟨by decide, rfl⟩⟩, ⟨rfl, by decide, by decide⟩, .inl rfl, .inl ⟨rfl, rfl⟩, by decide⟩

/-- A port that is not in REQUEST, in each of the other transaction states, at a rising edge of SCKx. -/
theorem witness_SerialClock_ignored : ∀ x, ((inTxn x).port .p0).selectLow = true ∧ ((inTxn x).port .p0).txn = x :=
  fun _ => ⟨rfl, rfl⟩

/-- Outside OPERATING; and in OPERATING with nothing waiting. Then the clauses on the serial lines: a port in RESPONSE at bit
7 of its byte 0, one whose SSx is high, one with fewer than seven bits, and one whose eighth bit makes 0xFF. -/
theorem witness_IdleLetsOneThingHappen :
    (State.reset.pending = [] ∧ State.reset.condition ≠ .operating) ∧ (busy.pending = [] ∧ busy.condition = .operating) ∧
      ((answering.port .p1).selectLow = true ∧ (answering.port .p1).txn = .response ⟨.ok, [0x57]⟩ .none ∧
        (answering.port .p1).line.placed = 8 * ((answering.port .p1).line.request.length + 0) + 0 + 1) ∧
      ((quiet.port .p1).selectLow = false ∧ (quiet.port .p1).line.clockHigh = false) ∧
      ((up.port .p1).selectLow = true ∧ (up.port .p1).line.bits.length < 7) ∧
      ((sevenBits.port .p1).selectLow = true ∧ bitsOf 0xFF = (sevenBits.port .p1).line.bits ++ [true] ∧
        (sevenBits.port .p1).txn = .request) := by decide

/-! ### The lines, the clocks and the orders of events -/

/-- Bits are sent most significant first (R146): 0x57 is 0101 0111. -/
theorem test_bits_msb_first : bitsOf 0x57 = [false, true, false, true, false, true, true, true] := by decide

/-- The eighth bit of CHK completes the IDENTIFY of section 9.2, which is taken (R147, R149). -/
theorem test_eighth_bit : ((sevenBits.happen (.sck .p1 true true)).port .p1).line.request = [0x01, 0x00, 0xFF] ∧
    (sevenBits.happen (.sck .p1 true true)).pending = [.identify .p1] := by decide

/-- The first bit of a response is bit 7 of RES, and OK is 0 (R146, R150). -/
theorem test_first_response_bit : answering.soLine .p1 = .low ∧ quiet.soLine .p1 = .highZ := by decide

/-- The second of two high samples of SYNC0 gives one rising edge (R165). -/
theorem test_sync_recognised :
    ({ busy with syncs := ⟨⟨true, true, false⟩, ⟨true, false, false⟩⟩ }.happen .refclk).pending = [.syncEdge .g0 true] := by
  decide

/-- R23 and R34: a resync edge taken first cuts the tick short, so the next tick of the old frame does not come; a tick taken
first stands before the edge. -/
theorem test_resync_before_tick :
    atResync.refclkRows [.syncEdge .g0 true, .tick .g0] = [.syncEdge .g0 true] ∧
      atResync.refclkRows [.tick .g0, .syncEdge .g0 true] = [.tick .g0, .syncEdge .g0 true] := by decide

/-- A record of G1's start, laid out by section 9.7: kind 5, reason 8, object 1, set id 0, frame 258. -/
theorem test_record_layout : (Event.groupState .g1 .started 258).bytes = [5, 8, 1, 0, 0, 0, 1, 2] := by decide

/-- A second rising edge without a falling one between is none (R165): an ARMED group stays ARMED. -/
theorem test_one_edge_a_change :
    ((after (.syncEdge .g0 true)
      { placed .armed 0 .startRise busy with syncs := ⟨⟨true, true, true⟩, ⟨false, false, false⟩⟩ }).group .g0).run =
      .armed := by decide

/-- R23: a divider code of 1 makes a tick of two periods of REFCLK. -/
theorem test_divider :
    let s := (placed .running 3 .none busy).modGroup .g0 fun v => { v with timing := { v.timing with divider := 1 } }
    (s.happen .refclk).pending = [] ∧ ((s.happen .refclk).happen .refclk).pending = [.tick .g0] := by decide

/-- MAP TRIP taken first with a longer time: the filter goes on qualifying (R113). -/
theorem test_map_trip_first :
    ((after (.tripInputQualified .trip1) (after (.mapTrip .p2 1 3 9) (filtered (.qualifying 2) 2))).input .trip1).filter =
      .qualifying 2 := by decide

/-- RESETn taken before the release of a DEVICE RESET: SSx is high afterwards (R167). -/
theorem test_reset_before_release :
    let s := after (.deviceResetEffect .p0 true) (after .resetnAsserted (inTxn (.response ⟨.ok, []⟩ .deviceReset)))
    s.condition = .reset ∧ (s.port .p0).selectLow = false := by decide

/-- P0 with its timer at 0, its expiry due. -/
def due : State := busy.modPort .p0 fun q => { q with timer := some 0 }

/-- The state in which a LIVENESS_EXPIRY of P0, behind a command that its owner answers so, leaves the part. -/
def expired (follows : Bool) (c : Instr) (body : State → Reply) : State :=
  after (.livenessExpiry .p0) (((body (due.taking .p0 c)).leaveDue follows due .p0).answer .p0)

/-- STAGE taken first: the expiry discards the edit with its set (R58), or does not occur (R102). -/
theorem test_expiry_behind_stage :
    let raw : RawPattern := { mode := 0, polarity := 0, gap := 3, offsetA := 0, widthA := 0, offsetB := 0, widthB := 0 }
    let t (follows : Bool) := expired follows (.stageLeg .p0 2 raw) (stageLegBody .p0 2 raw)
    reply .p0 (t true) = some (.ok, [1, 2, 60]) ∧ (t true).openSetOf .p0 = none ∧
      ((t false).openSetOf .p0).map (fun c => c.edits.length) = some 2 ∧ ((t false).port .p0).timer = some 50 := by decide

/-- SEAL taken first: the expiry cancels the PENDING set (R65), or does not occur (R102). -/
theorem test_expiry_behind_seal :
    let t (follows : Bool) := expired follows (.seal .p0 0 0) (sealBody .p0 0 0)
    ((t true).ownSet .p0 1).map (fun c => c.isDone) = some true ∧
      ((t false).ownSet .p0 1).map (fun c => c.isPending) = some true ∧ ((t false).port .p0).timer = some 50 := by decide

/-- R165: eighteen tenths after an edge of REFCLK no gap is read, and twenty-two tenths after one it is. -/
theorem test_gap_of_refclk :
    { busy with refclkGap := 17 }.dueClock = [] ∧ { busy with refclkGap := 21 }.dueClock = [.clockLost] ∧
      { busy with monitor := .lost 898, refclkGap := 17 }.dueClock = [] ∧
      { busy with monitor := .lost 1099, refclkGap := 17 }.dueClock = [.clockRestored] ∧
      { busy with monitor := .lost 1099, refclkGap := 21 }.dueClock = [.restoreCountRestart] := by decide

end Sys2Proof.Tests
end

section
/-! PROOFS. Leg patterns and the output interlock.

What a step can do to the records in force and to the outputs is said once, in `step_changes`: a step either keeps or blanks
every leg's record and brings no two outputs together (`Tame`), or is so around one frame start's share of the commit unit
(`Commits`). The laws of R5 and R6 follow from it. Behind it stand the windows and checks of a record, the readings that the
taking of a command leaves to its owner, and the statements about single rows. -/

-- The proofs are elaborated one after another: side by side they pass the check's limit of memory.
set_option Elab.async false

namespace Sys2Proof.Machine

/-! ### One leg -/

/-- What `InterlockLaw` asks of one leg (R5, R111). -/
def LegState.Apart (v : LegState) : Prop :=
  ¬(v.outA.state = .active ∧ v.outB.state = .active) ∧ ¬(v.safeA = true ∧ v.safeB = true)

theorem interlockLaw_iff {s : State} : InterlockLaw s ↔ ∀ l, (s.leg l).Apart := Iff.rfl

/-- A record in OFF mode with all windows 0, as after reset and after a forced OFF write (R19, R22). -/
def PatternRecord.Blank (r : PatternRecord) : Prop :=
  r.mode = .off ∧ r.offsetA = 0 ∧ r.widthA = 0 ∧ r.offsetB = 0 ∧ r.widthB = 0

theorem PatternRecord.blank_offRecord (r : PatternRecord) : (offRecord r).Blank := ⟨rfl, rfl, rfl, rfl, rfl⟩

theorem LegState.blank_forceOff (v : LegState) (tripped : Bool) : (v.forceOff tripped).record.Blank := by
  rw [LegState.forceOff_eq]
  cases tripped <;> exact v.record.blank_offRecord

/-- A blank record passes the checks against every period. -/
theorem PatternRecord.Blank.passes {r : PatternRecord} (h : r.Blank) {period : Nat} (hp : 0 < period) :
    checkRecord r period = none := by
  obtain ⟨hm, hoA, hwA, hoB, hwB⟩ := h
  have hr : rangeFails r period = false := by simp [rangeFails, hoA, hwA, hoB, hwB]; omega
  simp [checkRecord, hr, hm]

/-- A leg keeps its group and record, or its record is blanked; and its outputs and safe levels stay apart. -/
structure LegState.Tame (v w : LegState) : Prop where
  record : w.group = v.group ∧ w.record = v.record ∨ w.record.Blank
  apart : v.Apart → w.Apart

namespace LegState.Tame

theorem refl (v : LegState) : v.Tame v := ⟨.inl ⟨rfl, rfl⟩, id⟩

theorem trans {u v w : LegState} (h : u.Tame v) (k : v.Tame w) : u.Tame w where
  record := by
    rcases k.record with ⟨hg, hr⟩ | hb
    · rw [hg, hr]; exact h.record
    · exact .inr hb
  apart := k.apart ∘ h.apart

/-- A leg of which neither the record nor anything of the interlock changes. -/
theorem of_same {v w : LegState} (hg : w.group = v.group) (hr : w.record = v.record) (hA : w.outA = v.outA)
    (hB : w.outB = v.outB) (hsA : w.safeA = v.safeA) (hsB : w.safeB = v.safeB) : v.Tame w :=
  ⟨.inl ⟨hg, hr⟩, fun h => by unfold Apart; rw [hA, hB, hsA, hsB]; exact h⟩

theorem dropOutputs (v : LegState) : v.Tame v.dropOutputs where
  record := .inl ⟨rfl, rfl⟩
  apart h := by
    rw [LegState.dropOutputs_eq]
    exact ⟨by simp [inactiveAtOnce], h.2⟩

theorem forceOff (tripped : Bool) (v : LegState) : v.Tame (v.forceOff tripped) where
  record := .inr (v.blank_forceOff tripped)
  apart h := by
    rw [LegState.forceOff_eq]
    cases tripped with
    | true => exact h
    | false => exact ⟨by simp [offLeg, inactiveAtOnce], h.2⟩

/-- At the safe levels only the output with an active level can be active, and at most one level is. -/
theorem toSafe (v : LegState) : v.Tame v.toSafe where
  record := .inl ⟨rfl, rfl⟩
  apart h := by
    rw [LegState.toSafe_eq v h.1 h.2]
    refine ⟨fun hab => h.2 ?_, h.2⟩
    have level_of_active {level : Bool} {delay : Nat} {o : Output} (ha : (safeOutput level delay o).state = .active) :
        level = true := by
      cases level
      · simp [safeOutput, inactiveAtOnce] at ha
      · rfl
    exact ⟨level_of_active hab.1, level_of_active hab.2⟩

theorem tickStart (first : Bool) (period n : Nat) (v : LegState) : v.Tame (v.tickStart first period n) where
  record := .inl ⟨rfl, rfl⟩
  apart h := by
    rw [LegState.tickStart_eq first period n v h.1]
    exact ⟨tickLeg_apart first period n v h.1, h.2⟩

/-- The end of a safe wait raises only an output whose safe level is active and whose other output is not (R118). -/
theorem endSafeWait (v : LegState) : v.Tame v.endSafeWait where
  record := .inl ⟨rfl, rfl⟩
  apart h := by
    refine ⟨?_, h.2⟩
    obtain ⟨hab, hs⟩ := h
    unfold LegState.endSafeWait
    cases hsA : v.safeA with
    | true =>
      have hsB : v.safeB = false := by simpa [hsA] using hs
      simp only [hsB, Bool.false_and]
      split <;> simp_all
    | false =>
      simp only [Bool.false_and]
      split <;> simp_all

theorem deviceReset (home : Group) (v : LegState) : v.Tame (v.deviceReset home) where
  record := .inr ⟨rfl, rfl, rfl, rfl, rfl⟩
  apart _ := ⟨by simp [LegState.deviceReset, Output.drop_eq, inactiveAtOnce],
    by simp [LegState.deviceReset, LegState.atPowerOn]⟩

theorem atPowerOn (g : Group) (v : LegState) : v.Tame (.atPowerOn g) where
  record := .inr ⟨rfl, rfl, rfl, rfl, rfl⟩
  apart _ := ⟨by simp [LegState.atPowerOn, Output.atPowerOn], by simp [LegState.atPowerOn]⟩

/-- SET SAFE, which refuses two active levels (R119). -/
theorem setSafe {a b : Bool} (hab : ¬(a = true ∧ b = true)) (delay : Nat) (v : LegState) :
    v.Tame { v with safeA := a, safeB := b, safeDelay := delay } :=
  ⟨.inl ⟨rfl, rfl⟩, fun h => ⟨h.1, hab⟩⟩

theorem ite {v w x : LegState} {P : Prop} [Decidable P] (hw : P → v.Tame w) (hx : ¬P → v.Tame x) :
    v.Tame (if P then w else x) := by
  split
  · exact hw ‹_›
  · exact hx ‹_›

end LegState.Tame

/-! ### The whole state -/

/-- A change of the state by which each leg is tame, each timing is kept or reset with the legs of its group blanked, and
every group edit staged stood in a set before or has a legal period (R54). -/
structure Tame (s t : State) : Prop where
  legs : ∀ l, (s.leg l).Tame (t.leg l)
  timing : ∀ g, (t.group g).timing = (s.group g).timing ∨
    4 ≤ (t.group g).timing.period ∧ ∀ l, (t.leg l).group = g → (t.leg l).record.Blank
  staged : ∀ c ∈ t.sets, ∀ g x, Edit.group g x ∈ c.edits → 4 ≤ x.period ∨ ∃ d ∈ s.sets, .group g x ∈ d.edits

/-- The legs, the timings and the sets are as they were. -/
structure SameTables (s t : State) : Prop where
  legs : ∀ l, t.leg l = s.leg l
  timing : ∀ g, (t.group g).timing = (s.group g).timing
  sets : t.sets = s.sets

theorem SameTables.trans {s t u : State} (h : SameTables s t) (k : SameTables t u) : SameTables s u :=
  ⟨fun l => (k.legs l).trans (h.legs l), fun g => (k.timing g).trans (h.timing g), k.sets.trans h.sets⟩

theorem SameTables.tame {s t : State} (h : SameTables s t) : Tame s t where
  legs l := by rw [h.legs]; exact .refl _
  timing g := .inl (h.timing g)
  staged c hc g x hx := .inr ⟨c, h.sets ▸ hc, hx⟩

theorem SameTables.modPort (s : State) (p : Port) (f : PortState → PortState) : SameTables s (s.modPort p f) :=
  ⟨fun _ => rfl, fun _ => rfl, rfl⟩

theorem SameTables.modGroup (s : State) (g : Group) {f : GroupState → GroupState}
    (hf : ∀ v, (f v).timing = v.timing := by intro _; rfl) : SameTables s (s.modGroup g f) :=
  ⟨fun _ => rfl, fun k => by rw [State.modGroup_group]; split <;> simp [hf], rfl⟩

namespace Tame

variable {s t u : State}

theorem refl (s : State) : Tame s s := SameTables.tame ⟨fun _ => rfl, fun _ => rfl, rfl⟩

theorem trans (h : Tame s t) (k : Tame t u) : Tame s u where
  legs l := (h.legs l).trans (k.legs l)
  timing g := by
    rcases k.timing g with hk | hk
    · rcases h.timing g with hh | ⟨hp, hb⟩
      · exact .inl (hk.trans hh)
      · refine .inr ⟨hk ▸ hp, fun l hl => ?_⟩
        rcases (k.legs l).record with ⟨hg, hr⟩ | hblank
        · rw [hr]; exact hb l (hg ▸ hl)
        · exact hblank
    · exact .inr hk
  staged c hc g x hx := by
    rcases k.staged c hc g x hx with hp | ⟨d, hd, hxd⟩
    · exact .inl hp
    · exact h.staged d hd g x hxd

theorem same (h : Tame s t) (k : SameTables t u) : Tame s u := h.trans k.tame

theorem ite {P : Prop} [Decidable P] (ht : P → Tame s t) (hu : ¬P → Tame s u) : Tame s (if P then t else u) := by
  split
  · exact ht ‹_›
  · exact hu ‹_›

/-! Each operation of the state that a meaning ends with. -/

theorem modPort (h : Tame s t) (p : Port) (f : PortState → PortState) : Tame s (t.modPort p f) :=
  h.same (.modPort t p f)

theorem modInput (h : Tame s t) (i : TripInput) (f : InputState → InputState) : Tame s (t.modInput i f) :=
  h.same ⟨fun _ => rfl, fun _ => rfl, rfl⟩

theorem raise (h : Tame s t) (p : Port) (e : Event) : Tame s (t.raise p e) :=
  h.same ⟨fun _ => rfl, fun _ => rfl, rfl⟩

theorem raiseAll (h : Tame s t) (e : Event) : Tame s (t.raiseAll e) :=
  h.same ⟨fun _ => rfl, fun _ => rfl, rfl⟩

theorem raiseList (h : Tame s t) (p : Port) (es : List Event) : Tame s (t.raiseList p es) :=
  h.same ⟨by simp, by simp, by simp⟩

theorem raiseToSupervisor (h : Tame s t) (p : Port) (es : List Event) : Tame s (t.raiseToSupervisor p es) :=
  h.same ⟨by simp, by simp, by simp⟩

theorem startTimer (h : Tame s t) (p : Port) : Tame s (t.startTimer p) :=
  h.same ⟨by simp, by simp, by simp⟩

theorem stopTimerIfIdle (h : Tame s t) (p : Port) : Tame s (t.stopTimerIfIdle p) :=
  h.same ⟨by simp, by simp, by simp⟩

theorem modGroup (h : Tame s t) (g : Group) {f : GroupState → GroupState} 
    (hf : ∀ v, (f v).timing = v.timing := by intro _; rfl) : Tame s (t.modGroup g f) :=
  h.same (.modGroup t g hf)

theorem mapGroups (h : Tame s t) {f : Group → GroupState → GroupState} (hf : ∀ g v, (f g v).timing = v.timing) :
    Tame s (t.mapGroups f) :=
  h.same ⟨fun _ => rfl, fun k => by rw [State.mapGroups_group, hf], rfl⟩

theorem mapLegs (h : Tame s t) {f : Leg → LegState → LegState} (hf : ∀ l v, LegState.Tame v (f l v)) :
    Tame s (t.mapLegs f) :=
  h.trans ⟨fun l => by rw [State.mapLegs_leg]; exact hf l _, fun _ => .inl rfl, fun c hc _ _ hx => .inr ⟨c, hc, hx⟩⟩

theorem modLeg (h : Tame s t) (l : Leg) {f : LegState → LegState} (hf : ∀ v, LegState.Tame v (f v)) :
    Tame s (t.modLeg l f) :=
  h.mapLegs fun _ v => .ite (fun _ => hf v) fun _ => .refl v

theorem modLegsOf (h : Tame s t) (g : Group) {f : LegState → LegState} (hf : ∀ v, LegState.Tame v (f v)) :
    Tame s (t.modLegsOf g f) :=
  h.mapLegs fun _ v => .ite (fun _ => hf v) fun _ => .refl v

/-- The set table rewritten, with no edit in it that was not there. -/
theorem sets (h : Tame s t) (cs : List ChangeSet) (hc : ∀ c ∈ cs, ∀ e ∈ c.edits, ∃ d ∈ t.sets, e ∈ d.edits)
    (u : State) (hu : u = { t with sets := cs, nextId := u.nextId, sealCount := u.sealCount }) : Tame s u := by
  refine h.trans ⟨fun l => ?_, fun g => .inl ?_, fun c hcu g x hx => .inr ?_⟩
  · rw [hu]; exact .refl _
  · rw [hu]; rfl
  · rw [hu] at hcu; exact hc c hcu _ hx

/-- Sets are removed from the table. -/
theorem filterSets (h : Tame s t) (keep : ChangeSet → Bool) : Tame s { t with sets := t.sets.filter keep } :=
  h.sets _ (fun c hc _ he => ⟨c, List.mem_of_mem_filter hc, he⟩) _ rfl

/-- Sets are rewritten in place, each to one with no edit that it had not. -/
theorem mapSets (h : Tame s t) {f : ChangeSet → ChangeSet} (hf : ∀ c, ∀ e ∈ (f c).edits, e ∈ c.edits) :
    Tame s { t with sets := t.sets.map f } := by
  refine h.sets _ (fun c hc e he => ?_) _ rfl
  obtain ⟨d, hd, rfl⟩ := List.mem_map.mp hc
  exact ⟨d, hd, hf d e he⟩

theorem cancelSets (h : Tame s t) (pick : ChangeSet → Bool) (why : CancelReason) :
    Tame s (t.cancelSets pick why) := by
  refine (h.mapSets (f := fun c => if pick c then cancelledAs why c else c) fun c e he => ?_).same
    ⟨by simp, by simp, by simp⟩
  split at he
  · obtain ⟨i, o, g, b⟩ := c
    cases b with
    | pending es target seq => exact absurd he List.not_mem_nil
    | opened es => exact he
    | done target outcome => exact he
  · exact he

theorem setHolders (h : Tame s t) (pick : Item → Bool) (holder : Option Port) : Tame s (t.setHolders pick holder) :=
  .mapGroups (h.mapLegs (by intro _ v; exact .ite (fun _ => .of_same rfl rfl rfl rfl rfl rfl) fun _ => .refl v))
    (by intro _ v; split <;> rfl)

theorem stopOutputs (h : Tame s t) (g : Group) : Tame s (t.stopOutputs g) := by
  unfold State.stopOutputs
  split
  · exact h.modLegsOf g .dropOutputs
  · exact h

theorem enterStopped (h : Tame s t) (g : Group) (why : GroupReason) : Tame s (t.enterStopped g why) :=
  ((h.modGroup g).stopOutputs g).raiseAll _

theorem tickStart (h : Tame s t) (g : Group) (first : Bool) (n : Nat) : Tame s (t.tickStart g first n) :=
  h.modLegsOf g (.tickStart first _ n)

theorem forceOffLegs (h : Tame s t) (pick : Leg → Bool) : Tame s (t.forceOffLegs pick) :=
  h.mapLegs fun _ v => .ite (fun _ => .forceOff _ v) fun _ => .refl v

theorem applyFallbacks (h : Tame s t) (before : State) (p : Port) : Tame s (t.applyFallbacks before p) :=
  (h.forceOffLegs _).mapGroups fun _ v => by split <;> rfl

theorem tripGroup (h : Tame s t) (g : Group) (c : Cause) : Tame s (t.tripGroup g c) := by
  unfold State.tripGroup State.addCause State.firstTrip
  split
  · split
    · exact h
    · exact (h.modGroup g).raiseAll _
  · exact (((h.modGroup g).cancelSets _ _).modLegsOf g .toSafe).raiseAll _

theorem tripGroups (h : Tame s t) (pick : Group → Bool) (c : Cause) : Tame s (t.tripGroups pick c) := by
  unfold State.tripGroups
  have h0 : Tame s (if pick .g0 then t.tripGroup .g0 c else t) := .ite (fun _ => h.tripGroup _ _) fun _ => h
  exact .ite (fun _ => h0.tripGroup _ _) fun _ => h0

theorem assertInput (h : Tame s t) (i : TripInput) : Tame s (t.assertInput i) := (h.modInput _ _).tripGroups _ _

theorem expire (h : Tame s t) (p : Port) : Tame s (t.expire p) :=
  have h1 := ((h.setHolders _ _).filterSets _).cancelSets _ _
  (((h1.applyFallbacks t p).raiseList _ _).raiseToSupervisor _ _).modPort _ _

theorem resetPort (h : Tame s t) (p : Port) (bySupervisor : Bool) : Tame s (t.resetPort p bySupervisor) :=
  ((((h.setHolders _ _).filterSets _).applyFallbacks t p).modPort _ _).raiseToSupervisor _ _

/-- A reset of every block blanks every record and leaves legal timings and no set. -/
theorem of_reset (hl : ∀ l, (s.leg l).Tame (t.leg l)) (hb : ∀ l, (t.leg l).record.Blank)
    (hg : ∀ g, (t.group g).timing = .atReset) (hs : t.sets = []) : Tame s t where
  legs := hl
  timing g := .inr ⟨by rw [hg]; decide, fun l _ => hb l⟩
  staged c hc := by rw [hs] at hc; exact absurd hc List.not_mem_nil

theorem resetDevice (h : Tame s t) (p : Port) : Tame s (t.resetDevice p) := by
  refine h.trans (.of_reset (fun l => ?_) (fun l => ?_) (fun g => ?_) rfl)
  · cases l <;> exact .deviceReset _ _
  · cases l <;> exact ⟨rfl, rfl, rfl, rfl, rfl⟩
  · cases g <;> rfl

theorem enterReset (s : State) : Tame s s.enterReset := by
  refine .of_reset (fun l => ?_) (fun l => ?_) (fun g => ?_) rfl
  · cases l <;> exact .atPowerOn _ _
  · cases l <;> exact ⟨rfl, rfl, rfl, rfl, rfl⟩
  · cases g <;> rfl

theorem completeRead (h : Tame s t) (p : Port) : Tame s (t.completeRead p) := by
  unfold State.completeRead State.freeReported
  split
  · dsimp only
    split
    · exact .ite (fun _ => (h.modPort _ _).filterSets _) fun _ => h.modPort _ _
    · exact h.modPort _ _
  · exact h.modPort _ _
  · exact h

theorem releaseSelect (h : Tame s t) (p : Port) (whole : Bool) : Tame s (t.releaseSelect p whole) := by
  have h0 : Tame s (t.modPort p PortState.release) := h.modPort _ _
  unfold State.releaseSelect State.endTxn
  refine .ite (fun _ => ?_) fun _ => h0
  split
  · exact h0
  · exact h0.modPort _ _
  · exact h0.modPort _ _
  · exact h0.modPort _ _
  · exact (h0.resetPort _ _).modPort _ _
  · exact (h0.resetDevice _).modPort _ _
  · exact h0.modPort _ _
  · exact .modPort (.ite (fun _ => h0.completeRead _) fun _ => h0) _ _

end Tame

/-! ### A step -/

/-- A change of the state around one frame start's share of the commit unit: before it the tables are as they were, and
what comes after it is tame (R26, R78). -/
def Commits (s t : State) : Prop :=
  ∃ u g f, SameTables s u ∧ Tame (u.commitFrame g f) t

/-- What a step can do to the records, the timings, the outputs and the group edits. -/
def Changes (s t : State) : Prop := Tame s t ∨ Commits s t

namespace Changes

variable {s t u : State}

theorem tame (h : Changes s t) (k : Tame t u) : Changes s u := by
  rcases h with h | ⟨v, g, f, hv, hc⟩
  · exact .inl (h.trans k)
  · exact .inr ⟨v, g, f, hv, hc.trans k⟩

theorem after (h : SameTables s t) (k : Changes t u) : Changes s u := by
  rcases k with k | ⟨v, g, f, hv, hc⟩
  · exact .inl (h.tame.trans k)
  · exact .inr ⟨v, g, f, h.trans hv, hc⟩

theorem ite {P : Prop} [Decidable P] (ht : P → Changes s t) (hu : ¬P → Changes s u) :
    Changes s (if P then t else u) := by
  split
  · exact ht ‹_›
  · exact hu ‹_›

theorem frameStart (s : State) (g : Group) (fromRest : Bool) : Changes s (s.frameStart g fromRest) :=
  .inr ⟨s.modGroup g fun v => { v with fn := v.fn + 1 }, g, _, .modGroup s g,
    ((Tame.refl _).modGroup g).tickStart g fromRest 0⟩

theorem endFrame (s : State) (g : Group) : Changes s (s.endFrame g) := by
  unfold State.endFrame
  dsimp only
  generalize hu : s.modGroup g _ = u
  have hs : SameTables s u := hu ▸ .modGroup s g
  refine .ite (fun _ => .inl ?_) fun _ => .ite (fun _ => .inl ?_) fun _ => .after hs (frameStart u g false)
  · exact hs.tame.enterStopped _ _
  · exact hs.tame.enterStopped _ _

theorem startGroup (s : State) (g : Group) : Changes s (s.startGroup g) := by
  unfold State.startGroup
  split
  · refine .ite (fun _ => .inl (((Tame.refl s).modGroup g).raiseAll _)) fun _ => ?_
    exact (frameStart s g true).tame ((Tame.refl _).raiseAll _)
  · exact .inl (((Tame.refl s).modGroup g).raiseAll _)
  · exact .inl (.refl s)
  · exact .inl (.refl s)
  · exact .inl (.refl s)

theorem takeEdge (s : State) (g : Group) (rising : Bool) : Changes s (s.takeEdge g rising) := by
  unfold State.takeEdge
  refine .ite (fun _ => ?_) fun _ => .ite (fun _ => endFrame s g) fun _ => .inl (.refl s)
  exact (frameStart s g true).tame ((Tame.refl _).raiseAll _)

/-- A command taken on a port: what its owner does is what the step does. -/
theorem serve {p : Port} {c : Instr} {body : State → Reply} (h : serve p c body s = .next t)
    (hb : ∀ v, Changes v (body v).state) : Changes s t := by
  by_cases hs : CanTake s p
  · rw [serve_of_canTake hs] at h
    cases h
    exact (after (.modPort s p _) (hb _)).tame ((Tame.refl _).modPort p _)
  · rw [serve_of_not_canTake hs] at h
    cases h
    exact .inl (.refl s)

theorem serve_tame {p : Port} {c : Instr} {body : State → Reply} (h : Machine.serve p c body s = .next t)
    (hb : ∀ v, Tame v (body v).state) : Changes s t := serve h fun v => .inl (hb v)

theorem serveSetWork {p : Port} {c : Instr} {body : State → Reply} (h : serveSetWork p c body s = .next t)
    (hb : ∀ v, Tame v (body v).state) : Changes s t :=
  serve_tame h fun v => by
    unfold Reply.leaveDue
    split
    · exact (hb v).modPort p _
    · exact hb v

/-- An event that the part takes in OPERATING alone. -/
theorem inOperation {f : State → State} (h : inOperation f s = .next t) (hf : Changes s (f s)) : Changes s t := by
  by_cases hs : s.condition = .operating
  · rw [inOperation_of_operating f hs] at h
    cases h
    exact hf
  · rw [inOperation_of_not_operating f hs] at h
    cases h
    exact .inl (.refl s)

theorem onRefclk {f : State → State} (h : onRefclk f s = .next t) (hf : Changes (clocked s) (f (clocked s))) :
    Changes s t :=
  inOperation h (after (t := clocked s) ⟨fun _ => rfl, fun _ => rfl, rfl⟩ hf)

end Changes

/-! ### The owners of the commands -/

section bodies
variable (p : Port) (s : State)

theorem claimBody_tame (mask : Byte) : Tame s (claimBody p mask s).state := by
  unfold claimBody
  split
  · exact .refl s
  · split
    · exact .refl s
    · exact ((Tame.refl s).setHolders _ _).startTimer p

theorem releaseBody_tame (mask : Byte) : Tame s (releaseBody p mask s).state := by
  unfold releaseBody
  split
  · exact .refl s
  · split
    · exact .refl s
    · split
      · exact .refl s
      · exact ((Tame.refl s).setHolders _ _).stopTimerIfIdle p

theorem raiseSeized_tables (before : State) (mask : Byte) : SameTables s (s.raiseSeized before p mask) := by
  unfold State.raiseSeized
  generalize allItems = is
  induction is generalizing s with
  | nil => exact ⟨fun _ => rfl, fun _ => rfl, rfl⟩
  | cons i is ih =>
    refine SameTables.trans ?_ (ih _)
    dsimp only
    split
    · split <;> exact ⟨fun _ => rfl, fun _ => rfl, rfl⟩
    · exact ⟨fun _ => rfl, fun _ => rfl, rfl⟩

theorem stopTimers_tame {t : State} (h : Tame s t) (ps : List Port) : Tame s (ps.foldl State.stopTimerIfIdle t) := by
  induction ps generalizing t with
  | nil => exact h
  | cons q ps ih => exact ih (h.stopTimerIfIdle q)

/-- A trimmed set keeps some of its edits (R64). -/
theorem mem_of_trimmed {mask : Byte} {c : ChangeSet} {e : Edit} (h : e ∈ (s.trimmed p mask c).edits) : e ∈ c.edits := by
  obtain ⟨i, o, g, b⟩ := c
  cases b with
  | opened es => exact List.mem_of_mem_filter h
  | pending es target seq => exact h
  | done target outcome => exact h

theorem seizeBody_tame (mask : Byte) : Tame s (seizeBody p mask s).state := by
  unfold seizeBody
  split
  · exact .refl s
  · split
    · exact .refl s
    · refine stopTimers_tame _ (.startTimer (.same (.cancelSets ?_ _ _) (raiseSeized_tables p _ s mask)) p) _
      exact ((Tame.refl s).setHolders _ _).mapSets fun c e => mem_of_trimmed p s

theorem setFallbackBody_tame (item value : Byte) : Tame s (setFallbackBody p item value s).state := by
  unfold setFallbackBody State.setItemFallback
  split
  · split
    · split
      · exact (Tame.refl s).modLeg _ fun v => .of_same rfl rfl rfl rfl rfl rfl
      · exact (Tame.refl s).modGroup _
    · exact .refl s
  · exact .refl s

theorem setLivenessBody_tame (named timeout : Byte) : Tame s (setLivenessBody p named timeout s).state := by
  unfold setLivenessBody
  split
  · exact .refl s
  · split
    · exact .refl s
    · exact (Tame.refl s).modPort _ _

theorem portResetBody_tame (named : Byte) : Tame s (portResetBody p named s).state := by
  unfold portResetBody
  split
  · exact .refl s
  · split
    · exact .refl s
    · split
      · exact (Tame.refl s).resetPort _ _
      · exact .refl s

theorem openSetBody_tame (group : Byte) : Tame s (openSetBody p group s).state := by
  unfold openSetBody
  split
  · exact .refl s
  · split
    · exact .refl s
    · split
      · exact .refl s
      · refine (Tame.refl s).sets _ (fun c hc e he => ?_) _ rfl
        rcases List.mem_append.mp hc with hc | hc
        · exact ⟨c, hc, he⟩
        · rw [List.mem_singleton.mp hc] at he
          exact absurd he List.not_mem_nil

/-- An edit placed in a list: the edits then are that edit and the ones before. -/
theorem mem_placeEdit {e x : Edit} {es : List Edit} (h : x ∈ placeEdit e es) : x = e ∨ x ∈ es := by
  unfold placeEdit at h
  split at h
  · obtain ⟨y, hy, rfl⟩ := List.mem_map.mp h
    split
    · exact .inl rfl
    · exact .inr hy
  · rcases List.mem_append.mp h with h | h
    · exact .inr h
    · exact .inl (List.mem_singleton.mp h)

theorem mem_withEdits {f : List Edit → List Edit} {c : ChangeSet} {e : Edit} (h : e ∈ (c.withEdits f).edits) :
    e ∈ c.edits ∨ e ∈ f c.edits := by
  obtain ⟨i, o, g, b⟩ := c
  cases b with
  | opened es => exact .inr h
  | pending es target seq => exact .inl h
  | done target outcome => exact .inl h

/-- Staging an edit that, if it is for a group, has a legal period. -/
theorem stageEdit_tame (c : ChangeSet) (e : Edit) (he : ∀ g x, e = .group g x → 4 ≤ x.period) :
    Tame s (stageEdit s c e).state := by
  unfold stageEdit
  split
  · exact .refl s
  · refine ⟨fun l => .refl _, fun g => .inl rfl, fun d hd g x hx => ?_⟩
    obtain ⟨k, hk, rfl⟩ := List.mem_map.mp hd
    split at hx
    · rcases mem_withEdits hx with hx | hx
      · exact .inr ⟨k, hk, hx⟩
      · rcases mem_placeEdit hx with hx | hx
        · exact .inl (he g x hx.symm)
        · exact .inr ⟨k, hk, hx⟩
    · exact .inr ⟨k, hk, hx⟩

theorem stageLegBody_tame (leg : Byte) (record : RawPattern) : Tame s (stageLegBody p leg record s).state := by
  unfold stageLegBody
  split
  · exact .refl s
  · split
    · exact .refl s
    · split
      · exact .refl s
      · split
        · exact .refl s
        · split
          · exact .refl s
          · exact stageEdit_tame s _ _ fun g x h => nomatch h

/-- A timing record that passes the format checks has a legal period (R54). -/
theorem timingArg_period {r : RawTiming} {x : TimingRecord} (h : timingArg r = some x) : 4 ≤ x.period := by
  unfold timingArg at h
  split at h
  · exact nomatch h
  · cases h
    simp only at *
    omega

theorem stageGroupBody_tame (group : Byte) (record : RawTiming) : Tame s (stageGroupBody p group record s).state := by
  unfold stageGroupBody
  split
  · exact .refl s
  · split
    · exact .refl s
    · split
      · exact .refl s
      · split
        · exact .refl s
        · split
          · exact .refl s
          · next hx =>
            refine stageEdit_tame s _ _ fun g x h => ?_
            cases h
            exact timingArg_period hx

theorem unstageBody_tame (item : Byte) : Tame s (unstageBody p item s).state := by
  unfold unstageBody
  split
  · exact .refl s
  · split
    · exact .refl s
    · split
      · exact .refl s
      · refine (Tame.refl s).mapSets fun c e he => ?_
        split at he
        · exact (mem_withEdits he).elim id List.mem_of_mem_filter
        · exact he

theorem abandonBody_tame : Tame s (abandonBody p s).state := by
  unfold abandonBody
  split
  · exact .refl s
  · exact (Tame.refl s).filterSets _

/-- A seal moves the OPEN set of its port with its edits to the end of the table (R75). -/
theorem sealBody_tame (form : Byte) (value : Frame) : Tame s (sealBody p form value s).state := by
  unfold sealBody
  split
  · exact .refl s
  split
  · exact .refl s
  next c hc =>
  dsimp only
  split
  · exact .refl s
  split
  · exact .refl s
  split
  · exact .refl s
  split
  · exact .refl s
  split
  · exact .refl s
  split
  · exact .refl s
  refine (Tame.refl s).sets _ (fun d hd e he => ?_) _ rfl
  rcases List.mem_append.mp hd with hd | hd
  · exact ⟨d, List.mem_of_mem_filter hd, he⟩
  · rw [List.mem_singleton.mp hd] at he
    exact ⟨c, List.mem_of_find?_eq_some hc, he⟩

theorem withdrawBody_tame (setId : Byte) : Tame s (withdrawBody p setId s).state := by
  unfold withdrawBody
  split
  · exact .refl s
  · split
    · exact (Tame.refl s).filterSets _
    · exact .refl s

theorem ackSetBody_tame (setId : Byte) : Tame s (ackSetBody p setId s).state := by
  unfold ackSetBody
  split
  · exact .refl s
  · split
    · exact (Tame.refl s).filterSets _
    · exact .refl s

theorem setStatusBody_tame (setId : Byte) : Tame s (setStatusBody p setId s).state := by
  unfold setStatusBody
  split <;> exact .refl s

theorem startBody_changes (group : Byte) : Changes s (startBody p group s).state := by
  unfold startBody
  split
  · exact .inl (.refl s)
  · split
    · exact .inl (.refl s)
    · split
      · exact .inl (.refl s)
      · split
        · exact .inl (.refl s)
        · exact .startGroup s _

theorem stopGroup_tame (g : Group) (atEnd : Bool) : Tame s (s.stopGroup g atEnd) := by
  unfold State.stopGroup
  split
  · exact .refl s
  · exact .refl s
  · exact (Tame.refl s).enterStopped _ _
  · exact .ite (fun _ => ((Tame.refl s).modGroup g).raiseAll _) fun _ => (Tame.refl s).enterStopped _ _
  · exact .ite (fun _ => .refl s) fun _ => (Tame.refl s).enterStopped _ _

theorem stopBody_tame (group form : Byte) : Tame s (stopBody p group form s).state := by
  unfold stopBody
  split
  · split
    · exact .refl s
    · split
      · exact .refl s
      · exact stopGroup_tame s _ _
  · exact .refl s

theorem configureGroupBody_tame (group sync stopOutput : Byte) :
    Tame s (configureGroupBody p group sync stopOutput s).state := by
  unfold configureGroupBody State.configure
  split
  · split
    · exact .refl s
    · split
      · exact .refl s
      · exact .ite (fun _ => ((Tame.refl s).modGroup _).modLegsOf _ .dropOutputs) fun _ => (Tame.refl s).modGroup _
  · exact .refl s

/-- ASSIGN LEG changes the group of a leg whose record it blanks (R20). -/
theorem assignLegBody_tame (leg group : Byte) : Tame s (assignLegBody p leg group s).state := by
  unfold assignLegBody
  split
  · exact .refl s
  split
  · next l g _ _ =>
    split
    · exact .refl s
    split
    · exact .refl s
    refine ⟨fun k => ?_, fun _ => .inl rfl, fun c hc _ _ hx => .inr ⟨c, hc, hx⟩⟩
    simp only [accept, State.forceOffLegs, State.mapLegs_leg, State.modLeg_leg, decide_eq_true_eq]
    split
    · exact ⟨.inr (LegState.blank_forceOff _ _), (LegState.Tame.forceOff _ { s.leg k with group := g }).apart⟩
    · exact .refl _
  · exact .refl s

theorem tripBody_tame (mask : Byte) : Tame s (tripBody p mask s).state := by
  unfold tripBody
  split
  · exact .refl s
  · split
    · exact .refl s
    · split
      · exact .refl s
      · exact (Tame.refl s).tripGroups _ _

theorem clearTripBody_tame (group : Byte) : Tame s (clearTripBody p group s).state := by
  unfold clearTripBody State.clearGroup
  split
  · exact .refl s
  · split
    · exact .refl s
    · split
      · exact .refl s
      · split
        · exact .refl s
        · refine .modLegsOf (((Tame.refl s).modGroup _).raiseAll _) _ fun v => ?_
          exact (LegState.Tame.forceOff false v).trans (.of_same rfl rfl rfl rfl rfl rfl)

theorem mapTripBody_tame (input mask time : Byte) : Tame s (mapTripBody p input mask time s).state := by
  unfold mapTripBody State.mapInput
  split
  · exact .refl s
  · split
    · have h (i : TripInput) (f : InputState → InputState) : Tame s (s.modInput i f) := (Tame.refl s).modInput i f
      dsimp only [accept]
      split
      · exact h _ _
      · exact .ite (fun _ => (h _ _).assertInput _) fun _ => h _ _
      · exact (h _ _).tripGroups _ _
    · exact .refl s

theorem setSafeBody_tame (leg levelA levelB delay : Byte) : Tame s (setSafeBody p leg levelA levelB delay s).state := by
  unfold setSafeBody State.setSafe
  split
  · exact .refl s
  · split
    · split
      · exact .refl s
      · next hab =>
        split
        · exact .refl s
        · refine (Tame.refl s).modLeg _ fun v => ?_
          have h := LegState.Tame.setSafe (by simpa using hab) delay.toNat v
          exact .ite (fun _ => h.trans (.toSafe _)) fun _ => h
    · exact .refl s

end bodies

theorem readEventBody_state (p : Port) (s : State) : (readEventBody p s).state = s := by
  unfold readEventBody; split <;> rfl

/-! ### The events -/

namespace Changes

variable {s t : State}

theorem refl (s : State) : Changes s s := .inl (.refl s)

/-- An event that always answers a next state. -/
theorem next {u : State} (h : (.next u : Host.Outcome State Fault Refusal) = .next t) (k : Tame s u) : Changes s t := by
  cases h; exact .inl k

theorem badRequest {p : Port} {bytes : List Byte} (h : execBadRequest p bytes s = .next t) : Changes s t := by
  unfold execBadRequest at h
  split at h
  · split at h <;> cases h
    · exact .inl (((Tame.refl s).modPort p _).modPort p _)
    · exact .inl (((Tame.refl s).modPort p _).modPort p _)
    · exact .refl s
    · exact .refl s
    · exact .refl s
  · cases h; exact .refl s

theorem malformed {p : Port} {cmd len : Byte} (h : execMalformed p cmd len s = .next t) : Changes s t := by
  unfold execMalformed at h
  split at h <;> cases h
  · exact .inl ((Tame.refl s).modPort p _)
  · exact .refl s

theorem selectAsserted {p : Port} (h : execSelectAsserted p s = .next t) : Changes s t := by
  unfold execSelectAsserted at h
  dsimp only at h
  split at h <;> cases h
  · exact .inl (((Tame.refl s).modPort p _).modPort p _)
  · exact .inl ((Tame.refl s).modPort p _)

theorem readEventCompleted {p : Port} (h : execReadEventCompleted p s = .next t) : Changes s t :=
  inOperation h (.inl ((Tame.refl s).completeRead p))

theorem livenessExpiry {p : Port} (h : execLivenessExpiry p s = .next t) : Changes s t :=
  inOperation h (.ite (fun _ => .inl ((Tame.refl s).expire p)) fun _ => .refl s)

theorem fallbackHalt {g : Group} (h : execFallbackHalt g s = .next t) : Changes s t := by
  refine inOperation h (.ite (fun _ => .refl s) fun _ => .inl ?_)
  exact .ite (fun _ => (((Tame.refl s).modGroup g).modGroup g).raiseAll _) fun _ => (Tame.refl s).modGroup g

theorem tick {g : Group} (h : execTick g s = .next t) : Changes s t :=
  onRefclk h (.ite (fun _ => .inl (((Tame.refl _).modGroup g).tickStart g _ _)) fun _ => .refl _)

theorem frameEnd {g : Group} (h : execFrameEnd g s = .next t) : Changes s t :=
  onRefclk h (.ite (fun _ => .endFrame _ g) fun _ => .refl _)

theorem syncEdge {g : Group} {rising : Bool} (h : execSyncEdge g rising s = .next t) : Changes s t := by
  refine onRefclk h (.ite (fun _ => .refl _) fun _ => .after ?_ (.takeEdge _ g rising))
  exact ⟨fun _ => rfl, fun _ => rfl, rfl⟩

theorem tripInputLow {i : TripInput} (h : execTripInputLow i s = .next t) : Changes s t := by
  have h0 (f : InputState → InputState) : SameTables s (s.modInput i f) := ⟨fun _ => rfl, fun _ => rfl, rfl⟩
  refine .after (h0 _) (inOperation h (.ite (fun _ => .inl ?_) fun _ => .refl _))
  unfold State.sampleLow
  dsimp only
  split
  · exact .ite (fun _ => (Tame.refl _).assertInput i) fun _ => (Tame.refl _).modInput i _
  · exact .refl _
  · exact .refl _

theorem tripInputQualified {i : TripInput} (h : execTripInputQualified i s = .next t) : Changes s t := by
  refine inOperation h (.inl ?_)
  split
  · exact .ite (fun _ => (Tame.refl s).assertInput i) fun _ => .refl s
  · exact .refl s
  · exact .refl s

theorem tripInputHigh {i : TripInput} (h : execTripInputHigh i s = .next t) : Changes s t := by
  have h0 (f : InputState → InputState) : SameTables s (s.modInput i f) := ⟨fun _ => rfl, fun _ => rfl, rfl⟩
  exact .after (h0 _) (inOperation h (.ite (fun _ => .inl ((Tame.refl _).modInput i _)) fun _ => .refl _))

theorem safeWaitExpiry {l : Leg} (h : execSafeWaitExpiry l s = .next t) : Changes s t :=
  inOperation h (.ite (fun _ => .inl ((Tame.refl s).modLeg l .endSafeWait)) fun _ => .refl s)

theorem clockLost (h : execClockLost s = .next t) : Changes s t := by
  have h0 : Tame s { s with monitor := .lost 0, refclkGap := 0 } := SameTables.tame ⟨fun _ => rfl, fun _ => rfl, rfl⟩
  exact inOperation h (.ite (fun _ => .refl s) fun _ => .inl ((h0.raiseAll _).tripGroups _ _))

theorem restoreCountRestart (h : execRestoreCountRestart s = .next t) : Changes s t :=
  inOperation h (.ite (fun _ => .inl (SameTables.tame ⟨fun _ => rfl, fun _ => rfl, rfl⟩)) fun _ => .refl s)

theorem clockRestored (h : execClockRestored s = .next t) : Changes s t := by
  have h0 : Tame s { s with monitor := .present } := SameTables.tame ⟨fun _ => rfl, fun _ => rfl, rfl⟩
  exact inOperation h (.ite (fun _ => .inl (h0.raiseAll _)) fun _ => .refl s)

theorem enterStartUp_tame (s : State) (straps : BitVec 2) : Tame s (s.enterStartUp straps) :=
  .ite (fun _ => SameTables.tame ⟨fun _ => rfl, fun _ => rfl, rfl⟩) fun _ => .refl s

theorem startUpComplete (h : execStartUpComplete s = .next t) : Changes s t := by
  unfold execStartUpComplete at h
  split at h <;> cases h
  · exact .inl (SameTables.tame ⟨fun _ => rfl, fun _ => rfl, rfl⟩)
  · exact .refl s

end Changes

/-- What a row of the table can do: an arm for each. -/
theorem exec_changes {c : Instr} {s t : State} (h : exec c s = .next t) : Changes s t := by
  cases c with
  | identify p => exact .serve_tame h fun v => .refl v
  | portStatus p named =>
    refine .serve_tame h fun v => ?_
    unfold portStatusBody
    split
    · exact .refl v
    · split <;> exact .refl v
  | readEvent p => exact .serve_tame h fun v => by rw [readEventBody_state]; exact .refl v
  | setNotify p mask => exact .serve_tame h fun v => (Tame.refl v).modPort p _
  | portReset p named => exact .serve_tame h fun v => portResetBody_tame p v named
  | deviceReset p => exact .serve_tame h fun v => by unfold deviceResetBody; split <;> exact .refl v
  | claim p mask => exact .serve_tame h fun v => claimBody_tame p v mask
  | release p mask => exact .serve_tame h fun v => releaseBody_tame p v mask
  | seize p mask => exact .serve_tame h fun v => seizeBody_tame p v mask
  | setFallback p item value => exact .serve_tame h fun v => setFallbackBody_tame p v item value
  | setLiveness p named timeout => exact .serve_tame h fun v => setLivenessBody_tame p v named timeout
  | readLeases p => exact .serve_tame h fun v => .refl v
  | openSet p group => exact .serve_tame h fun v => openSetBody_tame p v group
  | stageLeg p leg record => exact .serveSetWork h fun v => stageLegBody_tame p v leg record
  | stageGroup p group record => exact .serveSetWork h fun v => stageGroupBody_tame p v group record
  | unstage p item => exact .serve_tame h fun v => unstageBody_tame p v item
  | abandon p => exact .serve_tame h fun v => abandonBody_tame p v
  | withdraw p setId => exact .serve_tame h fun v => withdrawBody_tame p v setId
  | ackSet p setId => exact .serve_tame h fun v => ackSetBody_tame p v setId
  | setStatus p setId => exact .serve_tame h fun v => setStatusBody_tame p v setId
  | start p group => exact .serve h fun v => startBody_changes p v group
  | stop p group form => exact .serve_tame h fun v => stopBody_tame p v group form
  | configureGroup p group sync out => exact .serve_tame h fun v => configureGroupBody_tame p v group sync out
  | assignLeg p leg group => exact .serve_tame h fun v => assignLegBody_tame p v leg group
  | trip p mask => exact .serve_tame h fun v => tripBody_tame p v mask
  | clearTrip p group => exact .serve_tame h fun v => clearTripBody_tame p v group
  | mapTrip p input mask time => exact .serve_tame h fun v => mapTripBody_tame p v input mask time
  | setSafe p leg a b delay => exact .serve_tame h fun v => setSafeBody_tame p v leg a b delay
  | readActive p item => exact .serve_tame h fun v => by unfold readActiveBody; split <;> exact .refl v
  | readPending p item =>
    refine .serve_tame h fun v => ?_
    unfold readPendingBody
    split
    · exact .refl v
    · split <;> exact .refl v
  | readOutputs p => exact .serve_tame h fun v => .refl v
  | badRequest p bytes => exact .badRequest h
  | malformed p cmd len => exact .malformed h
  | selectAsserted p => exact .selectAsserted h
  | selectReleased p whole => exact .next h ((Tame.refl s).releaseSelect p whole)
  | readEventCompleted p => exact .readEventCompleted h
  | portResetEffect p whole => exact .next h ((Tame.refl s).releaseSelect p whole)
  | deviceResetEffect p whole => exact .next h ((Tame.refl s).releaseSelect p whole)
  | livenessExpiry p => exact .livenessExpiry h
  | fallbackHalt g => exact .fallbackHalt h
  | tick g => exact .tick h
  | frameEnd g => exact .frameEnd h
  | syncEdge g rising => exact .syncEdge h
  | tripInputLow i => exact .tripInputLow h
  | tripInputQualified i => exact .tripInputQualified h
  | tripInputHigh i => exact .tripInputHigh h
  | safeWaitExpiry l => exact .safeWaitExpiry h
  | clockLost => exact .clockLost h
  | restoreCountRestart => exact .restoreCountRestart h
  | clockRestored => exact .clockRestored h
  | powerOn straps => exact .next h (Changes.enterStartUp_tame s straps)
  | powerFail => exact .next h (.enterReset s)
  | resetnAsserted => exact .next h (.enterReset s)
  | resetnReleased straps => exact .next h (Changes.enterStartUp_tame s straps)
  | startUpComplete => exact .startUpComplete h
  | _ p form value => exact .serveSetWork h fun v => sealBody_tame p v form value

/-- A tenth of a microsecond counts the safe waits down and changes nothing else of a leg (R118). -/
theorem State.countTenth_tame (s : State) : Tame s s.countTenth where
  legs l := by
    rw [State.countTenth_leg, State.countMicrosecond_leg]
    exact .ite (fun _ => .of_same rfl rfl rfl rfl rfl rfl) fun _ => .refl _
  timing g := .inl (by rw [State.countTenth_frame]; rfl)
  staged c hc g x hx := .inr ⟨c, by rw [State.countTenth_frame] at hc; exact hc, hx⟩

/-- An edge of REFCLK counts the divisions and changes no timing (R23). -/
theorem State.countRefclk_tame (s : State) : Tame s s.countRefclk :=
  SameTables.tame ⟨fun _ => rfl, fun g => by rw [State.countRefclk_group], rfl⟩

theorem Tame.enqueue {s t : State} (h : Tame s t) (rows : List Instr) (made : Nat) : Tame s (t.enqueue rows made) :=
  h.same ⟨fun _ => rfl, fun _ => rfl, rfl⟩

theorem State.happen_tame (s : State) (h : Happening) : Tame s (s.happen h) := by
  cases h with
  | oscillator => exact s.countTenth_tame.enqueue _ _
  | refclk => exact s.countRefclk_tame.enqueue _ _
  | syncPin g high => exact SameTables.tame ⟨fun _ => rfl, fun _ => rfl, rfl⟩
  | tripPin i low => exact (Tame.refl s).modInput i _
  | sck p high data => exact ((Tame.refl s).modPort p _).enqueue _ _
  | notice g => exact (Tame.refl s).enqueue _ _

theorem State.idle_tame (s : State) : Tame s s.idle := by
  refine .ite (fun _ => ?_) fun _ => .refl s
  have h0 : Tame s { s with choices := s.choices + 1 } := SameTables.tame ⟨fun _ => rfl, fun _ => rfl, rfl⟩
  exact h0.trans (State.happen_tame _ _)

/-- What a step can do: a row of the table, or idling. -/
theorem step_changes {s t : State} (h : step s = .next t) : Changes s t := by
  unfold step at h
  split at h
  · cases h; exact .inl s.idle_tame
  · next rest _ => exact .after (t := { s with pending := rest }) ⟨fun _ => rfl, fun _ => rfl, rfl⟩ (exec_changes h)

/-! ### The interlock law -/

theorem Tame.interlockLaw {s t : State} (h : Tame s t) (hs : InterlockLaw s) : InterlockLaw t :=
  interlockLaw_iff.mpr fun l => (h.legs l).apart (interlockLaw_iff.mp hs l)

/-- The commit unit writes records and leaves the outputs and the safe levels as they are. -/
theorem State.takeDueSet_interlockLaw {g : Group} {f : Frame} {s : State} (c : ChangeSet) (hs : InterlockLaw s) :
    InterlockLaw (s.takeDueSet g f c) := by
  refine interlockLaw_iff.mpr fun l => ?_
  rw [State.takeDueSet_leg]
  split
  · exact hs l
  · exact hs l

theorem State.commitFrame_interlockLaw {s : State} (g : Group) (f : Frame) (hs : InterlockLaw s) :
    InterlockLaw (s.commitFrame g f) := by
  unfold State.commitFrame
  generalize s.dueSets g f = cs
  induction cs generalizing s with
  | nil => exact hs
  | cons c cs ih => exact ih (State.takeDueSet_interlockLaw c hs)

/-- Settles O3: a step is tame around at most one frame start's share of the commit unit, and both keep the outputs
apart. -/
theorem interlockKept : Obligations.InterlockKept := by
  intro s t hs hstep
  rcases step_changes hstep with h | ⟨u, g, f, hu, hc⟩
  · exact h.interlockLaw hs
  · exact hc.interlockLaw (State.commitFrame_interlockLaw g f (hu.tame.interlockLaw hs))

/-! ### The records in force -/

theorem Tame.patternLaw {s t : State} (h : Tame s t) (hs : PatternLaw s) : PatternLaw t := by
  have periods (g : Group) : 4 ≤ (t.group g).timing.period := by
    rcases h.timing g with hg | ⟨hp, _⟩
    · rw [hg]; exact hs.periods g
    · exact hp
  refine ⟨periods, fun c hc g x hx => ?_, fun l => ?_⟩
  · rcases h.staged c hc g x hx with hp | ⟨d, hd, hxd⟩
    · exact hp
    · exact hs.staged d hd g x hxd
  · have blank (hb : (t.leg l).record.Blank) := hb.passes (Nat.lt_of_lt_of_le (by decide) (periods (t.leg l).group))
    rcases (h.legs l).record with ⟨hg, hr⟩ | hb
    · rcases h.timing (t.leg l).group with ht | ⟨_, hb⟩
      · rw [ht, hr, hg]; exact hs.records l
      · exact blank (hb l rfl)
    · exact blank hb

/-- The edits of a set that is taken at a frame start of group `g`: for legs of that group, and of legal periods
(R46, R54). -/
structure HomeEdits (s : State) (g : Group) (c : ChangeSet) : Prop where
  legs : ∀ l r, .leg l r ∈ c.edits → (s.leg l).group = g
  periods : ∀ h x, .group h x ∈ c.edits → 4 ≤ x.period

theorem HomeEdits.of_groups {s t : State} {g : Group} {c : ChangeSet} (h : HomeEdits s g c)
    (ht : ∀ l, (t.leg l).group = (s.leg l).group) : HomeEdits t g c :=
  ⟨fun l r hr => (ht l).trans (h.legs l r hr), h.periods⟩

theorem State.takeDueSet_leg_group (g : Group) (f : Frame) (s : State) (c : ChangeSet) (l : Leg) :
    ((s.takeDueSet g f c).leg l).group = (s.leg l).group := by
  rw [State.takeDueSet_leg]; split <;> rfl

/-- The timing of each group after a due set: the staged one if the set passes (R80). -/
theorem State.takeDueSet_timing (g : Group) (f : Frame) (s : State) (c : ChangeSet) (h : Group) :
    ((s.takeDueSet g f c).group h).timing =
      if s.validate g c.edits = none ∧ h = g then (stagedTiming c.edits g).getD (s.group h).timing
      else (s.group h).timing := by
  have written : ((s.writeEdits g c.edits).group h).timing =
      if h = g then (stagedTiming c.edits g).getD (s.group h).timing else (s.group h).timing := by
    rw [State.writeEdits_group]
    by_cases e : h = g
    · simp only [e, if_true]; cases stagedTiming c.edits g <;> rfl
    · simp only [e, if_false]
  unfold State.takeDueSet
  split
  · next hv => simp only [State.raise_group, hv, true_and]; exact written
  · next hv => simp only [State.raise_group, hv, reduceCtorEq, false_and, if_false]; rfl

/-- A leg of the group that a validation passes fits with its staged or active record (R74, R79). -/
theorem State.validate_passes {s : State} {g : Group} {es : List Edit} (h : s.validate g es = none) {l : Leg}
    (hl : (s.leg l).group = g) : checkRecord (s.recordFor es l) (s.periodFor g es) = none := by
  have := List.findSome?_eq_none_iff.mp h l (mem_allLegs l)
  simpa [hl] using this

theorem mem_finish {o : SetOutcome} {c : ChangeSet} {e : Edit} (h : e ∈ (c.finish o).edits) : e ∈ c.edits := by
  obtain ⟨i, p, g, b⟩ := c
  cases b with
  | opened es => exact h
  | pending es target seq => exact absurd h List.not_mem_nil
  | done target outcome => exact h

/-- A due set is applied whole if its whole group passes with it, and not at all otherwise (R79). -/
theorem State.takeDueSet_patternLaw {s : State} {g : Group} (f : Frame) {c : ChangeSet} (hs : PatternLaw s)
    (hc : HomeEdits s g c) : PatternLaw (s.takeDueSet g f c) := by
  refine ⟨fun h => ?_, fun d hd h x hx => ?_, fun l => ?_⟩
  · rw [State.takeDueSet_timing]
    split
    · cases hst : stagedTiming c.edits g with
      | none => exact hs.periods h
      | some x => exact hc.periods g x (mem_of_stagedTiming hst)
    · exact hs.periods h
  · rw [State.takeDueSet_sets] at hd
    obtain ⟨k, hk, rfl⟩ := List.mem_map.mp hd
    refine hs.staged k hk h x ?_
    split at hx
    · exact mem_finish hx
    · exact hx
  · rw [State.takeDueSet_timing, State.takeDueSet_leg_group, State.takeDueSet_leg]
    by_cases hv : s.validate g c.edits = none
    · simp only [hv, true_and, if_true]
      by_cases hl : (s.leg l).group = g
      · have hp : s.periodFor g c.edits = ((stagedTiming c.edits g).getD (s.group g).timing).period := by
          unfold State.periodFor; cases stagedTiming c.edits g <;> rfl
        have hpass := State.validate_passes hv hl
        rw [hp] at hpass
        simpa [hl] using hpass
      · have hn : stagedLeg c.edits l = none := stagedLeg_eq_none.mpr fun r hr => hl (hc.legs l r hr)
        simpa [hl, State.recordFor, hn] using hs.records l
    · simpa [hv] using hs.records l

theorem State.commitFrame_patternLaw {s : State} {g : Group} (f : Frame) (hs : PatternLaw s)
    (hh : ∀ c ∈ s.dueSets g f, HomeEdits s g c) : PatternLaw (s.commitFrame g f) := by
  unfold State.commitFrame
  generalize s.dueSets g f = cs at hh
  induction cs generalizing s with
  | nil => exact hs
  | cons c cs ih =>
    refine ih (State.takeDueSet_patternLaw f hs (hh c (by simp))) fun d hd => ?_
    exact (hh d (by simp [hd])).of_groups (State.takeDueSet_leg_group g f s c)

/-- The due sets of a group hold edits for its own legs, since every edit is leased so (R46, R57). -/
theorem State.dueSets_homeEdits {s : State} {g : Group} {f : Frame} {c : ChangeSet} (hp : PatternLaw s)
    (hl : ∀ d ∈ s.sets, ∀ l r, .leg l r ∈ d.edits → (s.leg l).group = d.group) (hc : c ∈ s.dueSets g f) :
    HomeEdits s g c := by
  simp only [State.dueSets, State.pendingIn, List.mem_filter, Bool.and_eq_true, decide_eq_true_eq] at hc
  obtain ⟨⟨hmem, _, rfl⟩, _⟩ := hc
  exact ⟨hl c hmem, hp.staged c hmem⟩

/-- Settles O11: a step is tame around at most one frame start's share of the commit unit, which writes only records
that its validation passed. -/
theorem recordsInForceStayChecked : Obligations.RecordsInForceStayChecked := by
  intro s t hlease hs hstep
  rcases step_changes hstep with h | ⟨u, g, f, hu, hc⟩
  · exact h.patternLaw hs
  · have hpu : PatternLaw u := hu.tame.patternLaw hs
    refine hc.patternLaw (State.commitFrame_patternLaw f hpu fun c => State.dueSets_homeEdits hpu ?_)
    intro d hd l r hr
    rw [hu.legs]
    exact (hlease d (hu.sets ▸ hd) _ hr).2.1 l rfl

/-! ### Windows and demands -/

/-- A window with its offset in the frame covers the ticks O, O+1, …, O+W−1 modulo P (R1). -/
theorem covers_iff {period o w n : Nat} (hn : n < period) (ho : o < period) :
    covers period o w n = true ↔ ∃ k, k < w ∧ n = (o + k) % period := by
  rw [covers, decide_eq_true_eq, Nat.mod_eq_of_lt ho]
  constructor
  · intro h
    refine ⟨_, h, ?_⟩
    rw [Nat.add_mod_mod, show o + (n + (period - o)) = n + period by omega, Nat.add_mod_right, Nat.mod_eq_of_lt hn]
  · rintro ⟨k, hk, rfl⟩
    rw [Nat.mod_add_mod, show o + k + (period - o) = k + period by omega, Nat.add_mod_right]
    exact Nat.lt_of_le_of_lt (Nat.mod_le k period) hk

/-- A window of width 0 covers no tick. -/
theorem covers_zero (period o n : Nat) : covers period o 0 n = false := by simp [covers]

/-- Settles O35: the demands of each mode are those windows (R3). -/
theorem windowsGiveTheDemands : Obligations.WindowsGiveTheDemands := by
  intro r period n hn inside
  have window (o w : Nat) (ho : o < period) : covers period o w n = true ↔ inside o w := covers_iff hn ho
  refine ⟨window, fun hm => ?_, fun hm ho => ?_, fun hm => ?_, fun hm ho => ?_, fun hm ho => ?_⟩
  · simp [demandA, demandB, hm]
  · rw [← window _ _ ho]
    cases h : r.mode with
    | off => exact absurd h hm
    | single => simp [demandA, h]
    | complementary => simp [demandA, h]
    | exclusive => simp [demandA, h]
  · simp [demandB, hm]
  · simp [demandB, hm, ← window _ _ ho]
  · simp [demandB, hm, window _ _ ho]

/-! ### The checks of a record -/

theorem rangeFails_iff {r : PatternRecord} {period : Nat} :
    rangeFails r period = true ↔
      period ≤ r.offsetA ∨ period < r.widthA ∨ period ≤ r.offsetB ∨ period < r.widthB := by
  simp [rangeFails, or_assoc]

theorem windowsOverlap_iff {r : PatternRecord} {period : Nat} :
    windowsOverlap r period = true ↔
      ∃ n, n < period ∧ covers period r.offsetA r.widthA n = true ∧ covers period r.offsetB r.widthB n = true := by
  simp [windowsOverlap]

/-- The circular distance is (next − o − w) mod P over the integers (R15). -/
theorem circularDistance_eq {period : Nat} (hp : 0 < period) (o w next : Nat) :
    (circularDistance period o w next : Int) = ((next : Int) - o - w) % period := by
  have hle : (o + w) % period ≤ period := (Nat.mod_lt _ hp).le
  have hdiv : ((o + w : Nat) : Int) = period * ((o + w) / period : Nat) + ((o + w) % period : Nat) := by
    exact_mod_cast (Nat.div_add_mod (o + w) period).symm
  have hsum : ((next + (period - (o + w) % period) : Nat) : Int) =
      (next - o - w) + period * ((o + w) / period + 1 : Nat) := by
    push_cast [Nat.cast_sub hle] at hdiv ⊢
    linarith
  rw [circularDistance, Int.natCast_emod, hsum, Int.add_mul_emod_self_left]

theorem rangeFails_eq_false {r : PatternRecord} {period : Nat} (h : checkRecord r period ≠ some .range) :
    rangeFails r period = false := by
  rw [Bool.eq_false_iff]
  exact fun hr => h (if_pos hr)

/-- An EXCLUSIVE record with two windows fails OVERLAP before GAP (R15, R16). -/
theorem checkRecord_exclusive {r : PatternRecord} {period : Nat} (hr : rangeFails r period = false)
    (hm : r.mode = .exclusive) (hA : r.widthA ≠ 0) (hB : r.widthB ≠ 0) :
    checkRecord r period =
      if windowsOverlap r period then some .overlap
      else if exclusiveGapFails r period then some .gap
      else none := by
  simp [checkRecord, hr, hm, hA, hB]

/-- Settles O36: the conditions of R13, R14 and R15 in the order of R16. -/
theorem checksFailAsStated : Obligations.ChecksFailAsStated := by
  intro r period hp range both apart
  have distance (o w next : Nat) : (circularDistance period o w next : Int) = apart o w next :=
    circularDistance_eq hp o w next
  have inRange (h : ¬range) : rangeFails r period = false := by
    rw [Bool.eq_false_iff]; exact mt rangeFails_iff.mp h
  refine ⟨fun h => ?_, fun h hm => ?_, fun h hm => ?_,
    fun h hm => ⟨fun hw => ?_, fun hA hB => ⟨fun hb => ?_, fun hb => ?_⟩⟩⟩
  · simp [checkRecord, rangeFails_iff.mpr h]
  · rcases hm with hm | hm <;> simp [checkRecord, inRange h, hm]
  · simp [checkRecord, inRange h, hm, complementaryGapFails, and_assoc]
  · simp [checkRecord, inRange h, hm, hw]
  · rw [checkRecord_exclusive (inRange h) hm hA.ne' hB.ne', if_pos (windowsOverlap_iff.mpr hb)]
  · rw [checkRecord_exclusive (inRange h) hm hA.ne' hB.ne', if_neg (mt windowsOverlap_iff.mp hb), ← distance,
      ← distance]
    refine ⟨fun hgap => if_pos ?_, fun h1 h2 => if_neg ?_⟩
    · simp only [exclusiveGapFails, Bool.or_eq_true, decide_eq_true_eq]
      omega
    · simp only [exclusiveGapFails, Bool.or_eq_true, decide_eq_true_eq]
      omega

/-- Settles O37: the two demands of a mode exclude each other, in EXCLUSIVE mode since the record passes OVERLAP. -/
theorem checkedRecordsDemandOneOutput : Obligations.CheckedRecordsDemandOneOutput := by
  intro r period n hn hpass ⟨hA, hB⟩
  cases hm : r.mode with
  | off => simp [demandA, hm] at hA
  | single => simp [demandB, hm] at hB
  | complementary =>
    simp only [demandA, demandB, hm] at hA hB
    simp [hA] at hB
  | exclusive =>
    simp only [demandA, demandB, hm] at hA hB
    have hwA : r.widthA ≠ 0 := fun h => by simp [h, covers_zero] at hA
    have hwB : r.widthB ≠ 0 := fun h => by simp [h, covers_zero] at hB
    have hover : windowsOverlap r period = true := windowsOverlap_iff.mpr ⟨n, hn, hA, hB⟩
    rw [checkRecord_exclusive (rangeFails_eq_false (by simp [hpass])) hm hwA hwB, if_pos hover] at hpass
    exact nomatch hpass

/-! ### What the taking of a command leaves to its owner -/

section taking
variable (s : State) (p : Port) (c : Instr)

@[simp] theorem State.taking_leg (l : Leg) : (s.taking p c).leg l = s.leg l := rfl
@[simp] theorem State.taking_group (g : Group) : (s.taking p c).group g = s.group g := rfl
@[simp] theorem State.taking_legInSet (l : Leg) : (s.taking p c).legInSet l = s.legInSet l := rfl
@[simp] theorem State.taking_isSupervisor (q : Port) : (s.taking p c).isSupervisor q = s.isSupervisor q := rfl
@[simp] theorem State.taking_openSetOf (q : Port) : (s.taking p c).openSetOf q = s.openSetOf q := rfl
@[simp] theorem State.taking_holds (q : Port) (i : Item) : (s.taking p c).holds q i = s.holds q i :=
  State.modPort_holds s p _ q i
@[simp] theorem State.taking_poolUsed : (s.taking p c).poolUsed = s.poolUsed := rfl
@[simp] theorem State.taking_pendingCount (q : Port) : (s.taking p c).pendingCount q = s.pendingCount q := rfl
@[simp] theorem State.taking_doneCount (q : Port) : (s.taking p c).doneCount q = s.doneCount q := rfl
@[simp] theorem State.taking_itemPending (k : ChangeSet) : (s.taking p c).itemPending k = s.itemPending k := rfl
@[simp] theorem State.taking_validate (g : Group) (es : List Edit) :
    (s.taking p c).validate g es = s.validate g es := rfl
@[simp] theorem State.taking_periodFor (g : Group) (es : List Edit) :
    (s.taking p c).periodFor g es = s.periodFor g es := rfl

end taking

/-- The ports after a command that its owner answers leaving them as it took them. -/
theorem served_answer {s : State} {p : Port} (c : Instr) (r : Reply)
    (hp : ∀ q, r.state.port q = (s.taking p c).port q) : Served p noRecords (s.port p).restarted s (r.answer p) := by
  refine ⟨fun q hq => ?_, ?_⟩
  · simp [Reply.answer_port, hq, hp, State.taking_port, noRecords]
  · simp [Reply.answer_port, hp, State.taking_port, noRecords]

/-- A command that its owner accepts, leaving the ports as it took them (R102, R149). -/
theorem answers_of_accept {s u : State} {p : Port} {c : Instr} {body : State → Reply} {data : List Byte}
    (h : CanTake s p) (hc : exec c s = serve p c body s) (hb : body (s.taking p c) = accept u data)
    (hp : ∀ q, u.port q = (s.taking p c).port q) :
    ∃ t, Answers c p s t .ok data .none ∧ t = { u with ports := t.ports } ∧
      Served p noRecords (s.port p).restarted s t := by
  refine ⟨_, ⟨hc.trans (serve_of_canTake h c body), ?_⟩, ?_, ?_⟩ <;> rw [hb]
  · exact answered_answer (accept u data) p
  · exact Reply.answer_frame (accept u data) p
  · exact served_answer c (accept u data) hp

/-! ### Bytes -/

theorem Interlock.code_eq (i : Interlock) : i.code = interlockByte i := by cases i <;> rfl

/-- Eight bits of a number's field are that byte of the number. -/
theorem extractByte_ofNat (n w k : Nat) (h : k + 8 ≤ w) : (BitVec.ofNat w n).extractLsb' k 8 = byteOf (n / 2 ^ k) := by
  apply BitVec.eq_of_getLsbD_eq
  intro i hi
  have hw : k + i < w := by omega
  simp only [byteOf, BitVec.getLsbD_extractLsb', BitVec.getLsbD_ofNat, hi, hw, decide_true, Bool.true_and,
    Nat.testBit_div_two_pow, Nat.add_comm]

theorem be32_eq (f : Frame) : be32 f = frameBytes f := by
  have h (k : Nat) (hk : k + 8 ≤ 32) : f.extractLsb' k 8 = byteOf (f.toNat / 2 ^ k) := by
    rw [← extractByte_ofNat f.toNat 32 k hk, BitVec.ofNat_toNat, BitVec.setWidth_eq]
  simp [be32, frameBytes, h]

theorem halfOf_eq (n : Nat) : halfOf n = numberBytes n := by
  simp [halfOf, be16, numberBytes, extractByte_ofNat]

theorem State.isSupervisor_iff {s : State} {p : Port} : s.isSupervisor p = true ↔ s.supervisor = some p := by
  simp [State.isSupervisor]

theorem State.holds_iff {s : State} {p : Port} {i : Item} : s.holds p i = true ↔ s.holder i = some p := by
  simp [State.holds]

/-! ### A tick, a move and a readout of the legs -/

/-- TICK before the last tick of a frame of a group whose ticks run (R23, R24). -/
theorem execTick_of_ticking {s : State} {g : Group} (hop : s.condition = .operating)
    (hrun : (s.group g).run = .running ∨ (s.group g).run = .halting)
    (hlast : (s.group g).tick + 1 < (s.group g).timing.period) :
    exec (.tick g) s = .next (((clocked s).modGroup g fun v => { v with tick := v.tick + 1, division := 0 }).tickStart g
      false ((s.group g).tick + 1)) := by
  have hcond : ((clocked s).ticking g && !(clocked s).lastTick g) = true := by
    simp only [State.ticking, State.lastTick, Bool.and_eq_true, Bool.or_eq_true, Bool.not_eq_true',
      decide_eq_true_eq, decide_eq_false_iff_not, Nat.not_le]
    exact ⟨hrun, hlast⟩
  exact (onRefclk_of_operating _ hop).trans (congrArg _ (if_pos hcond))

/-- Settles O38: the tick counter moves and `tickStart` evaluates the legs of the group (R6). -/
theorem tickEvaluatesTheLegs : Obligations.TickEvaluatesTheLegs := by
  intro g s hop hrun hlast
  refine ⟨_, execTick_of_ticking hop hrun hlast, fun h => ?_, fun hi l => ?_, rfl⟩
  · rw [State.tickStart_frame]
    exact State.modGroup_group (clocked s) g _ h
  · rw [State.tickStart_leg _ _ _ _ _ (by simpa [clocked] using (hi l).1)]
    simp [clocked]

/-- A forced OFF write to a leg moved to a STOPPED group (R11, R20). -/
theorem State.assignLeg_leg (s : State) (l k : Leg) (g : Group) (hg : (s.group g).run = .stopped) :
    ((s.modLeg l fun v => { v with group := g }).forceOffLegs fun k => decide (k = l)).leg k =
      if k = l then { offLeg false (s.leg k) with group := g } else s.leg k := by
  by_cases h : k = l
  · simp [State.forceOffLegs, State.tripped, h, hg, LegState.forceOff_eq, offLeg]
  · simp [State.forceOffLegs, h]

theorem State.legInSet_iff {s : State} {l : Leg} :
    s.legInSet l = true ↔ ∃ c ∈ s.sets, c.hasEdit (.leg l) = true := by
  simp [State.legInSet]

/-- Settles O43: the checks in R20's order, and the leg moved. -/
theorem assignLegMovesTheLeg : Obligations.AssignLegMovesTheLeg := by
  intro p leg group s hcan
  refine ⟨fun hsup => ?_, fun hsup => ⟨fun harg => ?_, fun l g hl hg => ⟨fun hin => ?_, fun hout => ⟨fun hrun => ?_,
    fun hrunL hrunG => ?_⟩⟩⟩⟩
  · have := mt State.isSupervisor_iff.mp hsup
    exact refuses_of hcan rfl (by simp [assignLegBody, this])
  all_goals replace hsup := State.isSupervisor_iff.mpr hsup
  · refine refuses_of hcan rfl ?_
    rcases harg with h | h
    · simp [assignLegBody, hsup, legArg_eq_none.mpr h]
    · simp [assignLegBody, hsup, groupArg_eq_none.mpr h]
  all_goals
    replace hl := legArg_eq_some.mpr hl
    replace hg := groupArg_eq_some.mpr hg
  · exact refuses_of hcan rfl (by simp [assignLegBody, hsup, hl, hg, State.legInSet_iff.mpr hin])
  all_goals
    have hin : s.legInSet l = false := by
      rw [Bool.eq_false_iff, Ne, State.legInSet_iff]
      simpa using hout
  · exact refuses_of hcan rfl (by simp [assignLegBody, hsup, hl, hg, hin, hrun])
  · obtain ⟨t, hans, hframe, hserved⟩ := answers_of_accept hcan rfl (c := .assignLeg p leg group)
      (body := assignLegBody p leg group) (data := [])
      (u := ((s.taking p _).modLeg l fun v => { v with group := g }).forceOffLegs fun k => decide (k = l))
      (by simp [assignLegBody, hsup, hl, hg, hin, hrunL, hrunG]) fun _ => rfl
    refine ⟨t, hans, fun k => ?_, ?_, hserved⟩
    · rw [hframe]; exact State.assignLeg_leg (s.taking p _) l k g hrunG
    · rw [hframe]; rfl

/-- Settles O57: the readout of `outputReadout`, byte by byte. -/
theorem readOutputsGivesThePins : Obligations.ReadOutputsGivesThePins := by
  intro p s hcan pin driver wait readout
  have hpin (pol : Polarity) (o : Output) : (pinHigh pol o).toNat = pin pol o := by
    cases pol <;> by_cases h : o.state = .active <;> simp [pinHigh, pin, h]
  have hdriver (run : RunState) : run.driver.code = driver run := by cases run <;> rfl
  have hwait (w : Option Nat) : safeWaitField w = wait w := by
    cases w with
    | none => rfl
    | some n => simp only [safeWaitField, wait]; split <;> omega
  have hreadout (l : Leg) : (s.taking p (.readOutputs p)).outputReadout l = readout l := by
    simp only [State.outputReadout, State.taking_leg, State.taking_group, readout, LegState.pinA, LegState.pinB, hpin,
      hdriver, hwait, halfOf_eq, Interlock.code_eq]
  obtain ⟨t, hans, ht⟩ := answers_of_same (c := .readOutputs p) (body := readOutputsBody) hcan rfl rfl
  refine ⟨t, ?_, ht⟩
  simpa [allLegs, hreadout] using hans

/-! ### Resets -/

/-- Each leg after a DEVICE RESET (R22). -/
theorem State.resetDevice_leg (s : State) (p : Port) (l : Leg) :
    (s.resetDevice p).leg l = { State.reset.leg l with
      outA := inactiveAtOnce (s.leg l).outA, outB := inactiveAtOnce (s.leg l).outB } := by
  cases l <;> simp only [← Output.drop_eq] <;> rfl

/-- Each port after a DEVICE RESET, its transaction and its lines apart (R137, R158). -/
theorem State.resetDevice_port (s : State) (p q : Port) :
    (s.resetDevice p).port q = { State.reset.port q with
      selectLow := (s.port q).selectLow, line := (s.port q).line,
      txn := if q = p then (s.port q).txn else (s.port q).txn.deviceReset } := by
  cases q <;> rfl

theorem Txn.deviceReset_eq (t : Txn) : t.deviceReset = if t = .deselected then .deselected else .discard false := by
  cases t <;> rfl

/-- The release that brings a DEVICE RESET into effect (R152, R157). -/
theorem State.releaseSelect_deviceReset {s : State} {p : Port} {resp : Response} (hop : s.condition = .operating)
    (htxn : (s.port p).txn = .response resp .deviceReset) (whole : Bool) :
    s.releaseSelect p whole =
      ((s.modPort p PortState.release).resetDevice p).endTxn p resp.result (prevOf whole) := by
  simp [State.releaseSelect, State.operating, hop, htxn]

/-- A hardware reset before the release of SSx and one after a DEVICE RESET at the release end alike (R167). -/
theorem State.enterReset_resetDevice (s : State) (p : Port) (r : Result) (how : PrevResponse) :
    (((s.modPort p PortState.release).resetDevice p).endTxn p r how).enterReset =
      s.enterReset.modPort p PortState.release := by
  cases p <;> rfl

/-- Settles O18: the release resets every block, and a hardware reset overrides both orders. -/
theorem deviceResetTakesEffect : Obligations.DeviceResetTakesEffect := by
  intro p whole resp s hop htxn
  have hrelease := State.releaseSelect_deviceReset hop htxn whole
  refine ⟨s.releaseSelect p whole, rfl, ?_⟩
  rw [hrelease]
  refine ⟨fun g => ?_, fun l => ?_, fun i => ?_, rfl, fun q hq => ?_, ?_, fun c u v hc hu hv => ?_⟩
  · cases g <;> rfl
  · exact State.resetDevice_leg (s.modPort p PortState.release) p l
  · cases i <;> rfl
  · simp [State.endTxn, State.resetDevice_port, hq, Txn.deviceReset_eq]
  · simp only [State.endTxn, State.modPort_port, State.resetDevice_port, if_true, PortState.release, prevOf]
    cases p <;> rfl
  · have hreset (w : State) : exec c w = .next w.enterReset := by rcases hc with rfl | rfl <;> rfl
    rw [hreset] at hu ⊢
    cases hu
    have hlater : exec (.deviceResetEffect p whole) s.enterReset = .next (s.enterReset.modPort p PortState.release) :=
      congrArg _ (State.releaseSelect_of_not_operating (by simp [State.enterReset, State.reset]) p whole)
    rw [hlater] at hv
    cases hv
    rw [State.enterReset_resetDevice]

/-- Settles O2: the reset state has no set, no lease, no record and nothing active. -/
theorem resetMeetsEveryLaw : Obligations.ResetMeetsEveryLaw := by
  have noHolder (i : Item) : State.reset.holder i = none := by
    rcases i with l | g
    · cases l <;> rfl
    · cases g <;> rfl
  refine ⟨fun l => ?_, fun p => ?_, ?_, ?_, ?_, ?_, ?_, fun g => ?_, ⟨fun _ => rfl, fun _ g => ?_⟩, fun p => ?_, ?_⟩
  · cases l <;> exact ⟨by decide, by decide⟩
  · cases p <;> decide
  · exact ⟨by decide, by decide, fun _ => Nat.zero_le _, fun _ => Nat.zero_le _, by decide, by decide, by decide,
      by decide⟩
  · exact fun c hc => absurd hc List.not_mem_nil
  · exact .nil
  · exact fun c hc => absurd hc List.not_mem_nil
  · exact fun c hc => absurd hc List.not_mem_nil
  · cases g <;> decide
  · cases g <;> exact .inl rfl
  · have noTimer : (State.reset.port p).timer = none := by cases p <;> rfl
    simp [noTimer, State.holdsAny_iff, noHolder]
  · refine ⟨fun g => ?_, fun c hc => absurd hc List.not_mem_nil, fun l => ?_⟩
    · cases g <;> decide
    · cases l <;> decide

/-! ### The OPEN set of a port -/

/-- Of at most one element that passes a test, two are one. -/
theorem eq_of_countP_le_one {α : Type} {f : α → Bool} {xs : List α} (h : xs.countP f ≤ 1) {a b : α} (ha : a ∈ xs)
    (hb : b ∈ xs) (hfa : f a = true) (hfb : f b = true) : a = b := by
  rw [List.countP_eq_length_filter] at h
  have ha' : a ∈ xs.filter f := List.mem_filter.mpr ⟨ha, hfa⟩
  have hb' : b ∈ xs.filter f := List.mem_filter.mpr ⟨hb, hfb⟩
  match hx : xs.filter f, h with
  | [], _ => simp [hx] at ha'
  | [x], _ =>
    rw [hx, List.mem_singleton] at ha' hb'
    rw [ha', hb']

theorem TableLaw.openSetOf_eq_some {s : State} (h : TableLaw s) {p : Port} {c : ChangeSet} (hc : c ∈ s.sets)
    (hp : c.owner = p) (ho : c.isOpen = true) : s.openSetOf p = some c :=
  find?_of_unique _ _ c hc (by simp [hp, ho]) fun _ hd hf =>
    eq_of_countP_le_one (h.opened p) hd hc hf (by simp [hp, ho])

theorem State.openSetOf_eq_none {s : State} {p : Port} (h : ∀ c ∈ s.sets, c.owner = p → c.isOpen = false) :
    s.openSetOf p = none :=
  List.find?_eq_none.mpr fun c hc => by simpa using h c hc

theorem TableLaw.eq_of_id {s : State} (h : TableLaw s) {c k : ChangeSet} (hc : c ∈ s.sets) (hk : k ∈ s.sets)
    (hid : k.id = c.id) : k = c :=
  List.inj_on_of_nodup_map h.ids hk hc hid

/-- A STAGE or a SEAL that its owner accepts, leaving the ports as it took them (R58, R65, R102). -/
theorem answers_setWork {s u : State} {p : Port} {c : Instr} {body : State → Reply} {data : List Byte}
    (h : CanTake s p) (hc : exec c s = serveSetWork p c body s) (hb : body (s.taking p c) = accept u data)
    (hp : ∀ q, u.port q = (s.taking p c).port q) :
    ∃ t, Answers c p s t .ok data .none ∧ t = { u with ports := t.ports } ∧
      Served p noRecords (setWorkTimer p s) s t := by
  refine ⟨_, ⟨hc.trans (serveSetWork_of_canTake h c body), ?_⟩, ?_, ?_⟩ <;> rw [hb]
  · have := answered_answer ((accept u data).leaveDue (Config.expiryFollows p s.choices) s p) p
    rwa [Reply.leaveDue_resp, Reply.leaveDue_after] at this
  · rw [Reply.answer_frame, Reply.leaveDue_frame]
    rfl
  · exact served_setWork c (accept u data) rfl hp

/-! ### STAGE LEG -/

theorem modeArg_eq_none {b : Byte} : modeArg b = none ↔ 3 < b.toNat := by
  unfold modeArg
  split
  all_goals simp_all
  all_goals omega

theorem modeArg_eq_some {b : Byte} {m : LegMode} (h : modeArg b = some m) : m.code = b := by
  apply BitVec.eq_of_toNat_eq
  unfold modeArg at h
  split at h <;> cases h <;> next hb => rw [hb]; rfl

theorem modeArg_exclusive {b : Byte} {m : LegMode} (h : modeArg b = some m) : m = .exclusive ↔ b = 3 := by
  rw [← modeArg_eq_some h]
  cases m <;> decide

/-- The polarity byte that its two bits give is the byte itself, where it is 3 or less (R159). -/
theorem polarityByte_polarityBit : ∀ b : Byte, b.toNat ≤ 3 →
    polarityByte (polarityBit b 0) (polarityBit b 1) = b := by decide

/-- The record that the bytes of a STAGE LEG spell, read in mode `m` (R159). -/
def recordOf (raw : RawPattern) (m : LegMode) : PatternRecord :=
  { mode := m, polarityA := polarityBit raw.polarity 0, polarityB := polarityBit raw.polarity 1,
    gap := raw.gap.toNat, offsetA := raw.offsetA.toNat, widthA := raw.widthA.toNat, offsetB := raw.offsetB.toNat,
    widthB := raw.widthB.toNat }

theorem spells_recordOf {raw : RawPattern} {m : LegMode} (hm : modeArg raw.mode = some m)
    (hp : raw.polarity.toNat ≤ 3) : Spells raw (recordOf raw m) := by
  refine ⟨?_, rfl, rfl, rfl, rfl, rfl⟩
  have hmode : (patternBytes (recordOf raw m)).take 2 =
      [m.code, polarityByte (polarityBit raw.polarity 0) (polarityBit raw.polarity 1)] := by
    cases m <;> rfl
  rw [hmode, modeArg_eq_some hm, polarityByte_polarityBit _ hp]

/-- The format checks of R17 and R159 refuse the record, or it is read as its bytes spell. -/
theorem patternArg_of_bad {raw : RawPattern} (h : badPattern raw = true) : patternArg raw = none := by
  unfold patternArg
  split
  · rfl
  · next m hm =>
    refine if_pos ?_
    have hmode : ¬3 < raw.mode.toNat := by rw [← modeArg_eq_none, hm]; exact nofun
    simpa [badPattern, hmode, modeArg_exclusive hm, or_assoc] using h

theorem patternArg_of_good {raw : RawPattern} (h : badPattern raw = false) :
    ∃ r, patternArg raw = some r ∧ Spells raw r := by
  simp only [badPattern, Bool.or_eq_false_iff, decide_eq_false_iff_not] at h
  obtain ⟨⟨⟨hmode, hpol⟩, hgap⟩, hB⟩ := h
  obtain ⟨m, hm⟩ := Option.ne_none_iff_exists'.mp (mt modeArg_eq_none.mp hmode)
  refine ⟨recordOf raw m, ?_, spells_recordOf hm (by omega)⟩
  have hcond : ¬(3 < raw.polarity.toNat ∨ 1023 < raw.gap.toNat ∨
      (m ≠ .exclusive ∧ (raw.offsetB ≠ 0 ∨ raw.widthB ≠ 0))) := by
    simp only [hpol, hgap, false_or, Ne, modeArg_exclusive hm]
    simpa using hB
  simp only [patternArg, hm, if_neg hcond, recordOf]

/-- Placing an edit in an OPEN set rewrites that set of the table. -/
theorem TableLaw.stagedSets {s : State} (h : TableLaw s) {c : ChangeSet} (hc : c ∈ s.sets) (ho : c.isOpen = true)
    (e : Edit) : (s.updateSet c.id (ChangeSet.withEdits (placeEdit e))).sets =
      s.sets.map fun k => if k.id = c.id then { c with body := .opened (stagedList e c) } else k := by
  refine List.map_congr_left fun k hk => ?_
  by_cases hid : k.id = c.id
  · obtain rfl := h.eq_of_id hc hk hid
    obtain ⟨i, o, g, b⟩ := k
    cases b with
    | opened es => rfl
    | pending es target seq => exact nomatch ho
    | done target outcome => exact nomatch ho
  · simp only [if_neg hid]

theorem stageEdit_accepts {s : State} {c : ChangeSet} {e : Edit} (h : c.hasEdit e.item = true ∨ s.poolUsed < 64) :
    stageEdit s c e = accept (s.updateSet c.id (ChangeSet.withEdits (placeEdit e)))
      [byteOf c.id, byteOf (stagedList e c).length,
        byteOf (s.updateSet c.id (ChangeSet.withEdits (placeEdit e))).poolFree] := by
  refine if_neg ?_
  rcases h with h | h
  · simp [h]
  · have : ¬64 ≤ s.poolUsed := by omega
    simp [Config.poolSlots, this]

/-- Settles O28: the refusals in R53's order, and the edit placed. -/
theorem stageLegPlacesTheEdit : Obligations.StageLegPlacesTheEdit := by
  intro p leg raw s hcan htable
  have hrefuse {r : Result} {data : List Byte} (hr : r ≠ .ok)
      (hb : stageLegBody p leg raw (s.taking p (.stageLeg p leg raw)) =
        refuse (s.taking p (.stageLeg p leg raw)) r data) : Refuses (.stageLeg p leg raw) p s r data :=
    refuses_of_setWork hcan rfl hb hr
  refine ⟨fun hleg => hrefuse nofun ?_, fun l hl => ⟨fun hnone => hrefuse nofun ?_, fun c hc hp ho => ?_⟩⟩
  · simp [stageLegBody, legArg_eq_none.mpr hleg]
  all_goals replace hl := legArg_eq_some.mpr hl
  · simp [stageLegBody, hl, State.openSetOf_eq_none hnone]
  have hopen := htable.openSetOf_eq_some hc hp ho
  refine ⟨fun hh => hrefuse nofun ?_, fun hh => ⟨fun hg => hrefuse nofun ?_, fun hg => ⟨fun hbad => hrefuse nofun ?_,
    fun hgood hnew hfull => hrefuse nofun ?_, fun hgood hroom => ?_⟩⟩⟩
  · simp [stageLegBody, hl, hopen, mt State.holds_iff.mp hh]
  all_goals replace hh := State.holds_iff.mpr hh
  · simp [stageLegBody, hl, hopen, hh, hg]
  · simp [stageLegBody, hl, hopen, hh, hg, patternArg_of_bad hbad]
  all_goals obtain ⟨r, hr, hspells⟩ := patternArg_of_good hgood
  · simp [stageLegBody, hl, hopen, hh, hg, hr, stageEdit, Edit.item, hnew, hfull, Config.poolSlots]
  · obtain ⟨t, hans, hframe, hserved⟩ := answers_setWork hcan rfl (c := .stageLeg p leg raw)
      (body := stageLegBody p leg raw) (u := (s.taking p _).updateSet c.id (ChangeSet.withEdits (placeEdit (.leg l r))))
      (by simpa [stageLegBody, hl, hopen, hh, hg, hr] using stageEdit_accepts hroom) fun _ => rfl
    have hsets := htable.stagedSets hc ho (.leg l r)
    have hpool : 64 - t.poolUsed =
        ((s.taking p (.stageLeg p leg raw)).updateSet c.id (ChangeSet.withEdits (placeEdit (.leg l r)))).poolFree := by
      rw [hframe]; rfl
    refine ⟨t, r, hspells, ?_, ?_, hserved⟩
    · rw [hpool]; exact hans
    · rw [← hsets]; exact hframe

/-! ### The edits of a set and its validation -/

/-- In a list that edits no item twice, an edit is the one that its item stages. -/
theorem stagedLeg_eq_some_iff {es : List Edit} (hn : (es.map Edit.item).Nodup) {l : Leg} {r : PatternRecord} :
    stagedLeg es l = some r ↔ .leg l r ∈ es := by
  refine ⟨mem_of_stagedLeg, fun h => ?_⟩
  cases hs : stagedLeg es l with
  | none => exact absurd h (stagedLeg_eq_none.mp hs r)
  | some x =>
    have := List.inj_on_of_nodup_map hn (mem_of_stagedLeg hs) h rfl
    cases this
    rfl

theorem stagedTiming_eq_some_iff {es : List Edit} (hn : (es.map Edit.item).Nodup) {g : Group} {x : TimingRecord} :
    stagedTiming es g = some x ↔ .group g x ∈ es := by
  refine ⟨mem_of_stagedTiming, fun h => ?_⟩
  cases hs : stagedTiming es g with
  | none => exact absurd h (stagedTiming_eq_none.mp hs x)
  | some y =>
    have := List.inj_on_of_nodup_map hn (mem_of_stagedTiming hs) h rfl
    cases this
    rfl

theorem checkedRecord_iff {s : State} {es : List Edit} (hn : (es.map Edit.item).Nodup) {l : Leg} {r : PatternRecord} :
    CheckedRecord s es l r ↔ r = s.recordFor es l := by
  unfold CheckedRecord State.recordFor
  rw [← stagedLeg_eq_some_iff hn, ← stagedLeg_eq_none]
  cases stagedLeg es l <;> simp [eq_comm]

theorem checkedPeriod_iff {s : State} {g : Group} {es : List Edit} (hn : (es.map Edit.item).Nodup) {period : Nat} :
    CheckedPeriod s g es period ↔ period = s.periodFor g es := by
  unfold CheckedPeriod State.periodFor
  simp only [← stagedTiming_eq_some_iff hn]
  cases stagedTiming es g <;> simp

/-- What the validation finds of one leg: the failure of a leg of the group (R74, R79). -/
def State.legFailure (s : State) (g : Group) (es : List Edit) (l : Leg) : Option CheckFail :=
  if (s.leg l).group = g then checkRecord (s.recordFor es l) (s.periodFor g es) else none

theorem State.validate_eq (s : State) (g : Group) (es : List Edit) :
    s.validate g es = allLegs.findSome? fun l => (s.legFailure g es l).map fun why => (why, l) := by
  unfold State.validate State.legFailure
  congr 1
  funext l
  split <;> rfl

theorem State.legFailure_eq_some {s : State} {g : Group} {es : List Edit} (hn : (es.map Edit.item).Nodup) {l : Leg}
    {why : CheckFail} : s.legFailure g es l = some why ↔ FailsWith s g es l why := by
  unfold State.legFailure
  by_cases hg : (s.leg l).group = g <;> simp [FailsWith, checkedRecord_iff hn, checkedPeriod_iff hn, hg]

theorem State.legFailure_eq_none {s : State} {g : Group} {es : List Edit} (hn : (es.map Edit.item).Nodup) {l : Leg} :
    s.legFailure g es l = none ↔ ∀ why, ¬FailsWith s g es l why := by
  simp only [Option.eq_none_iff_forall_ne_some, ← State.legFailure_eq_some hn, Ne]

theorem allLegs_ascending : allLegs.Pairwise (fun a b => legNum a < legNum b) := by decide

/-- The search over the legs finds the lowest leg for which the test answers. -/
theorem findSome?_allLegs_eq_some {β : Type} {f : Leg → Option β} {b : β} {l : Leg} :
    (allLegs.findSome? fun k => (f k).map fun b => (b, k)) = some (b, l) ↔
      f l = some b ∧ ∀ k, legNum k < legNum l → f k = none := by
  rw [List.findSome?_eq_some_iff]
  constructor
  · rintro ⟨before, k, after, hsplit, hk, hbefore⟩
    obtain ⟨x, hx, hxk⟩ := Option.map_eq_some_iff.mp hk
    cases hxk
    refine ⟨hx, fun j hj => ?_⟩
    have hasc := allLegs_ascending
    rw [hsplit, List.pairwise_append, List.pairwise_cons] at hasc
    obtain ⟨-, ⟨hafter, -⟩, -⟩ := hasc
    have hmem := mem_allLegs j
    rw [hsplit, List.mem_append, List.mem_cons] at hmem
    rcases hmem with h | rfl | h
    · simpa using hbefore j h
    · exact absurd hj (Nat.lt_irrefl _)
    · exact absurd hj (Nat.lt_asymm (hafter j h))
  · rintro ⟨hl, hlow⟩
    obtain ⟨before, after, hsplit⟩ := List.append_of_mem (mem_allLegs l)
    have hasc := allLegs_ascending
    rw [hsplit, List.pairwise_append] at hasc
    obtain ⟨-, -, hbefore⟩ := hasc
    exact ⟨before, l, after, hsplit, by simp [hl], fun k hk => by simp [hlow k (hbefore k hk l (by simp))]⟩

/-- The validation answers none where no leg of the group fails. -/
theorem State.validate_eq_none {s : State} {g : Group} {es : List Edit} (hn : (es.map Edit.item).Nodup) :
    s.validate g es = none ↔ ∀ l why, ¬FailsWith s g es l why := by
  simp [State.validate_eq, mem_allLegs, State.legFailure_eq_none hn]

/-- The validation answers the lowest leg of the group that fails, with its failure (R16, R74, R79). -/
theorem State.validate_eq_some {s : State} {g : Group} {es : List Edit} (hn : (es.map Edit.item).Nodup)
    {why : CheckFail} {l : Leg} :
    s.validate g es = some (why, l) ↔
      FailsWith s g es l why ∧ ∀ k other, legNum k < legNum l → ¬FailsWith s g es k other := by
  rw [State.validate_eq, findSome?_allLegs_eq_some, State.legFailure_eq_some hn]
  refine and_congr_right fun _ => forall_congr' fun k => ?_
  rw [State.legFailure_eq_none hn]
  exact ⟨fun h other hk => h hk other, fun h hk other => h other hk⟩

/-! ### SEAL refused -/

theorem sealArg_eq_none {form : Byte} {value : Frame}
    (h : 2 < form.toNat ∨ form.toNat = 1 ∧ (value.toNat = 0 ∨ 65535 < value.toNat)) : sealArg form value = none := by
  unfold sealArg Config.farthest
  split
  · omega
  · exact if_neg (by omega)
  · omega
  · rfl

/-- The first item of an edit list with a PENDING set is the one that SEAL names (R72). -/
theorem State.itemPending_eq_some {s : State} {c : ChangeSet} {before after : List Edit} {e : Edit} {k : ChangeSet}
    (hc : c.edits = before ++ e :: after) (hbefore : ∀ x ∈ before, s.pendingSetOf x.item = none)
    (hk : s.pendingSetOf e.item = some k) : s.itemPending c = some (e.item, k.id) := by
  unfold State.itemPending
  rw [List.findSome?_eq_some_iff]
  exact ⟨before, e, after, hc, by simp [hk], fun x hx => by simp [hbefore x hx]⟩

theorem State.itemPending_eq_none {s : State} {c : ChangeSet} (h : ∀ e ∈ c.edits, s.pendingSetOf e.item = none) :
    s.itemPending c = none :=
  List.findSome?_eq_none_iff.mpr fun e he => by simp [h e he]

theorem resolveTarget_error_ne_ok {fn : Frame} {f : SealForm} {r : Result} (h : resolveTarget fn f = .error r) :
    r ≠ .ok := by
  unfold resolveTarget at h
  split at h
  · exact nomatch h
  · exact nomatch h
  · dsimp only at h
    split at h
    · exact nomatch h
    · split at h <;> cases h <;> exact nofun

theorem CheckFail.result_ne_ok (why : CheckFail) : why.result ≠ .ok := by cases why <;> exact nofun

/-- Settles O34: the refusals in the order of R71's table, and the validation. -/
theorem sealRefusesInOrder : Obligations.SealRefusesInOrder := by
  intro p form value s hcan htable
  have hrefuse {r : Result} {data : List Byte} (hr : r ≠ .ok)
      (hb : sealBody p form value (s.taking p (.seal p form value)) =
        refuse (s.taking p (.seal p form value)) r data) : Refuses (.seal p form value) p s r data :=
    refuses_of_setWork hcan rfl hb hr
  refine ⟨fun hbad => hrefuse nofun ?_, fun f hf => ⟨fun hnone => hrefuse nofun ?_, fun c hc hp ho => ?_⟩,
    fun g es hn => ⟨State.validate_eq_none hn, fun why l => State.validate_eq_some hn⟩⟩
  · simp [sealBody, sealArg_eq_none hbad]
  · simp [sealBody, hf, State.openSetOf_eq_none hnone]
  have hopen := htable.openSetOf_eq_some hc hp ho
  have hlimit := htable.limit p
  refine ⟨fun hempty => hrefuse nofun ?_, fun hne htrip => hrefuse nofun ?_, fun hne htrip hfour => hrefuse nofun ?_,
    fun htrip hroom => ⟨fun before e after hsplit hbefore k hk => hrefuse nofun ?_, fun hne hfree =>
      ⟨fun r hr => hrefuse (resolveTarget_error_ne_ok hr) ?_, fun target why l htarget hfail => ?_⟩⟩⟩
  · simp [sealBody, hf, hopen, hempty]
  · simp [sealBody, hf, hopen, hne, htrip, RunState.code]
  · simp [sealBody, hf, hopen, hne, htrip, Config.portSetLimit, hfour]
  all_goals have hroom : ¬4 ≤ s.pendingCount p + s.doneCount p := by omega
  · have hne : c.edits ≠ [] := by simp [hsplit]
    simp [sealBody, hf, hopen, hne, htrip, Config.portSetLimit, hroom, State.itemPending_eq_some hsplit hbefore hk,
      Item.code]
  · simp [sealBody, hf, hopen, hne, htrip, Config.portSetLimit, hroom, State.itemPending_eq_none hfree, hr, be32_eq]
  · have hrefused : Refuses (.seal p form value) p s why.result
        ([byteOf c.id, byteOf (legNum l)] ++ numberBytes (s.periodFor c.group c.edits)) := by
      refine hrefuse why.result_ne_ok ?_
      simp [sealBody, hf, hopen, hne, htrip, Config.portSetLimit, hroom, State.itemPending_eq_none hfree, htarget,
        hfail, halfOf_eq]
    cases why <;> exact hrefused

end Sys2Proof.Machine
end

section
/-! PROOFS. The group commands, the fallback HALT notice and the clock monitor.

A command that raises records is answered by `answers_of_told`; START, STOP, CONFIGURE GROUP, the fallback HALT notice and
the clock rows follow from what their operations do to each group, leg and port. -/

set_option Elab.async false

namespace Sys2Proof.Machine

/-! ### A command that raises records -/

section taking
variable (s : State) (p : Port) (c : Instr)

@[simp] theorem State.taking_tripped (g : Group) : (s.taking p c).tripped g = s.tripped g := rfl
@[simp] theorem State.taking_monitor : (s.taking p c).monitor = s.monitor := rfl

end taking

/-- Records raised behind the taking of a command stand in a port as they would without it. -/
theorem served_of_told {s u : State} {p : Port} {c : Instr} {es : Port → List Event} (ht : Told es (s.taking p c) u)
    (resp : Response) (after : After) : Served p es (s.port p).restarted s ((Reply.mk u resp after).answer p) := by
  refine ⟨fun q hq => ?_, ?_⟩
  · simp [Reply.answer_port, hq, ht q, State.taking_port]
  · simp [Reply.answer_port, ht p, State.taking_port, PortState.afterRecords]

/-- A command that its owner accepts, raising records (R102, R128, R149). -/
theorem answers_of_told {s u : State} {p : Port} {c : Instr} {body : State → Reply} {data : List Byte}
    {es : Port → List Event} (h : CanTake s p) (hc : exec c s = serve p c body s)
    (hb : body (s.taking p c) = accept u data) (ht : Told es (s.taking p c) u) :
    ∃ t, Answers c p s t .ok data .none ∧ t = { u with ports := t.ports } ∧
      Served p es (s.port p).restarted s t := by
  refine ⟨_, ⟨hc.trans (serve_of_canTake h c body), ?_⟩, ?_, ?_⟩ <;> rw [hb]
  · exact answered_answer (accept u data) p
  · exact Reply.answer_frame (accept u data) p
  · exact served_of_told ht _ _

/-- One record raised to all ports behind a change of the groups alone. -/
theorem told_modGroup_raiseAll (s : State) (g : Group) (f : GroupState → GroupState) (e : Event) :
    Told (toAll e) s ((s.modGroup g f).raiseAll e) := fun q => by
  rw [State.raiseAll_port, State.modGroup_port, toAll]

theorem told_enterStopped (s : State) (g : Group) (why : GroupReason) :
    Told (toAll (.groupState g why (s.group g).fn)) s (s.enterStopped g why) := fun q =>
  State.enterStopped_port s g why q

theorem State.tripped_iff {s : State} {g : Group} : s.tripped g = true ↔ (s.group g).run = .tripped := by
  simp [State.tripped]

theorem Monitor.isLost_eq_false {m : Monitor} : m.isLost = false ↔ m = .present := by cases m <;> simp [Monitor.isLost]

theorem SyncMode.isStart_iff {m : SyncMode} : m.isStart = true ↔ m = .startRise ∨ m = .startFall := by
  cases m <;> simp [SyncMode.isStart]

theorem RunState.code_eq (r : RunState) : r.code = runByte r := by cases r <;> rfl

theorem State.runAndFrame_eq (s : State) (g : Group) :
    s.runAndFrame g = runByte (s.group g).run :: frameBytes (s.group g).fn := by
  rw [State.runAndFrame, RunState.code_eq, be32_eq]

/-! ### START, but for a frame start -/

/-- START in a STOPPED group in a START mode (R29). -/
theorem State.startGroup_arms {s : State} {g : Group} (hrun : (s.group g).run = .stopped)
    (hsync : (s.group g).sync.isStart = true) :
    s.startGroup g = (s.modGroup g fun v => { v with run := .armed, tick := 0, division := 0 }).raiseAll
      (.groupState g .armed (s.group g).fn) := by
  simp only [State.startGroup, hrun, hsync, if_true]

/-- START in a HALTING group (R29). -/
theorem State.startGroup_resumes {s : State} {g : Group} (hrun : (s.group g).run = .halting) :
    s.startGroup g =
      (s.modGroup g fun v => { v with run := .running }).raiseAll (.groupState g .started (s.group g).fn) := by
  simp only [State.startGroup, hrun]

/-- START in a group that is ARMED or RUNNING already (R29). -/
theorem State.startGroup_same {s : State} {g : Group} (hrun : (s.group g).run = .armed ∨ (s.group g).run = .running) :
    s.startGroup g = s := by
  rcases hrun with hrun | hrun <;> simp only [State.startGroup, hrun]

/-- START that passes R29's refusals. -/
theorem startBody_accepts {s : State} {p : Port} {group : Byte} {g : Group} (hg : groupArg group = some g)
    (hh : s.holder (.group g) = some p) (htrip : (s.group g).run ≠ .tripped)
    (hclock : (s.group g).run = .stopped → s.monitor = .present) :
    startBody p group s = accept (s.startGroup g)
      (runByte ((s.startGroup g).group g).run :: frameBytes ((s.startGroup g).group g).fn) := by
  have h1 : s.holds p (.group g) = true := State.holds_iff.mpr hh
  have h2 : s.tripped g = false := by rwa [Bool.eq_false_iff, Ne, State.tripped_iff]
  have h3 : ¬((s.group g).run = .stopped ∧ s.monitor.isLost = true) := fun ⟨hs, hl⟩ => by
    rw [hclock hs] at hl; exact nomatch hl
  rw [startBody, hg]
  simp only [h1, h2, h3, Bool.not_true, if_false, Bool.false_eq_true, State.runAndFrame_eq]

/-- Settles O40: the refusals in R29's order, and the rows of its table in which no frame starts. -/
theorem startInOtherStates : Obligations.StartInOtherStates := by
  intro p group s hcan
  refine ⟨fun hbad => refuses_of hcan rfl (by simp [startBody, groupArg_eq_none.mpr hbad]), fun g hg => ?_⟩
  replace hg := groupArg_eq_some.mpr hg
  refine ⟨fun hh => ?_, fun hh => ?_⟩
  · have := mt State.holds_iff.mp hh
    exact refuses_of hcan rfl (by simp [startBody, hg, this])
  have hholds := State.holds_iff.mpr hh
  have hhu : (s.taking p (.start p group)).holder (.group g) = some p := hh
  refine ⟨fun hrun => ?_, fun hrun hclock => ?_, fun hrun hclock hsync => ?_, fun hrun => ?_, fun hrun => ?_⟩
  · have := State.tripped_iff.mpr hrun
    exact refuses_of hcan rfl (by simp [startBody, hg, hholds, this])
  · have hlost : s.monitor.isLost = true := by
      rw [← Bool.not_eq_false, Monitor.isLost_eq_false]; exact hclock
    exact refuses_of hcan rfl (by simp [startBody, hg, hholds, State.tripped, hrun, hlost])
  · have hstart := State.startGroup_arms (s := s.taking p (.start p group)) hrun (SyncMode.isStart_iff.mpr hsync)
    obtain ⟨t, hans, hframe, hserved⟩ := answers_of_told hcan (c := .start p group) rfl
      (startBody_accepts hg hhu (by simp [hrun]) fun _ => hclock)
      (by rw [hstart]; exact told_modGroup_raiseAll _ _ _ _)
    rw [hstart] at hans hframe
    refine ⟨t, by simpa [runByte] using hans, fun h => ?_, ?_, hserved⟩
    · rw [hframe]
      exact State.modGroup_group _ _ _ _
    · rw [hframe]; rfl
  · have hstart := State.startGroup_resumes (s := s.taking p (.start p group)) hrun
    obtain ⟨t, hans, hframe, hserved⟩ := answers_of_told hcan (c := .start p group) rfl
      (startBody_accepts hg hhu (by simp [hrun]) (by simp [hrun]))
      (by rw [hstart]; exact told_modGroup_raiseAll _ _ _ _)
    rw [hstart] at hans hframe
    refine ⟨t, by simpa [runByte] using hans, fun h => ?_, ?_, hserved⟩
    · rw [hframe]
      exact State.modGroup_group _ _ _ _
    · rw [hframe]; rfl
  · have hsame := State.startGroup_same (s := s.taking p (.start p group)) hrun
    have hbody := startBody_accepts hg hhu (by rcases hrun with h | h <;> simp [h])
      (by rcases hrun with h | h <;> simp [h])
    rw [hsame] at hbody
    exact answers_of_same hcan rfl hbody

/-! ### STOP -/

/-- STOP that ends the run of a group at once (R30). -/
theorem State.stopGroup_now {s : State} {g : Group} {atEnd : Bool} (h : (s.group g).run = .armed ∨
    ((s.group g).run = .running ∨ (s.group g).run = .halting) ∧ atEnd = false) :
    s.stopGroup g atEnd = s.enterStopped g .stoppedNow := by
  rcases h with hrun | ⟨hrun | hrun, rfl⟩ <;> simp [State.stopGroup, hrun]

/-- STOP AT_END in a RUNNING group (R30). -/
theorem State.stopGroup_halts {s : State} {g : Group} (hrun : (s.group g).run = .running) :
    s.stopGroup g true =
      (s.modGroup g fun v => { v with run := .halting }).raiseAll (.groupState g .halting (s.group g).fn) := by
  simp only [State.stopGroup, hrun, if_true]

/-- STOP in a STOPPED group, and STOP AT_END in a HALTING one (R30). -/
theorem State.stopGroup_same {s : State} {g : Group} {atEnd : Bool} (h : (s.group g).run = .stopped ∨
    (s.group g).run = .halting ∧ atEnd = true) : s.stopGroup g atEnd = s := by
  rcases h with hrun | ⟨hrun, rfl⟩ <;> simp [State.stopGroup, hrun]

/-- STOP that passes R30's refusals. -/
theorem stopBody_accepts {s : State} {p : Port} {group form : Byte} {g : Group} {atEnd : Bool}
    (hg : groupArg group = some g) (hf : flagArg form = some atEnd)
    (hh : s.holder (.group g) = some p ∨ s.supervisor = some p) (htrip : (s.group g).run ≠ .tripped) :
    stopBody p group form s = accept (s.stopGroup g atEnd)
      (runByte ((s.stopGroup g atEnd).group g).run :: frameBytes ((s.stopGroup g atEnd).group g).fn) := by
  have h1 : (s.holds p (.group g) || s.isSupervisor p) = true := by
    simpa [State.holds_iff, State.isSupervisor_iff] using hh
  have h2 : s.tripped g = false := by rwa [Bool.eq_false_iff, Ne, State.tripped_iff]
  rw [stopBody, hg, hf]
  simp only [h1, h2, Bool.not_true, if_false, Bool.false_eq_true, State.runAndFrame_eq]

/-- A form of STOP is 0 for NOW or 1 for AT_END (R30). -/
theorem flagArg_eq_some {b : Byte} (h : b.toNat ≤ 1) :
    b = 0 ∧ flagArg b = some false ∨ b = 1 ∧ flagArg b = some true := by
  have : b.toNat = 0 ∨ b.toNat = 1 := by omega
  rcases this with h | h
  · exact .inl ⟨BitVec.eq_of_toNat_eq h, by simp [flagArg, h]⟩
  · exact .inr ⟨BitVec.eq_of_toNat_eq h, by simp [flagArg, h]⟩

/-- Settles O41: the refusals in R30's order, and the rows of its table. -/
theorem stopByStateAndForm : Obligations.StopByStateAndForm := by
  intro p group form s hcan
  refine ⟨fun hbad => refuses_of hcan rfl ?_, fun g hg hform => ⟨fun hh hsup => ?_, fun hh => ?_⟩⟩
  · rcases hbad with h | h
    · simp [stopBody, groupArg_eq_none.mpr h]
    · simp [stopBody, flagArg_eq_none.mpr h]
  all_goals
    replace hg := groupArg_eq_some.mpr hg
    obtain ⟨atEnd, hflag, hform0, hform1⟩ : ∃ atEnd, flagArg form = some atEnd ∧
        (form = 0 → atEnd = false) ∧ (form = 1 → atEnd = true) := by
      rcases flagArg_eq_some hform with ⟨rfl, h⟩ | ⟨rfl, h⟩
      · exact ⟨false, h, fun _ => rfl, nofun⟩
      · exact ⟨true, h, nofun, fun _ => rfl⟩
  · have h1 := mt State.holds_iff.mp hh
    have h2 := mt State.isSupervisor_iff.mp hsup
    exact refuses_of hcan rfl (by simp [stopBody, hg, hflag, h1, h2])
  have hhu : (s.taking p (.stop p group form)).holder (.group g) = some p ∨
    (s.taking p (.stop p group form)).supervisor = some p := hh
  refine ⟨fun hrun => refuses_of hcan rfl ?_, fun hrun => ?_, fun hrun hf => ?_, fun hrun => ?_⟩
  · have htrip := State.tripped_iff.mpr hrun
    rw [← State.holds_iff, ← State.isSupervisor_iff] at hh
    rcases hh with h | h <;> simp [stopBody, hg, hflag, h, htrip]
  · have hstop : (s.taking p (.stop p group form)).stopGroup g atEnd =
        (s.taking p (.stop p group form)).enterStopped g .stoppedNow :=
      State.stopGroup_now (hrun.imp_right fun ⟨hr, hf⟩ => ⟨hr, hform0 hf⟩)
    have htrip : (s.group g).run ≠ .tripped := by rcases hrun with h | ⟨h | h, -⟩ <;> simp [h]
    obtain ⟨t, hans, hframe, hserved⟩ := answers_of_told hcan (c := .stop p group form) rfl
      (stopBody_accepts hg hflag hhu htrip) (by rw [hstop]; exact told_enterStopped _ _ _)
    rw [hstop] at hans hframe
    obtain ⟨hgroup, hothers, hlegs, hrest⟩ := State.enterStopped_stops (s.taking p (.stop p group form)) g .stoppedNow
    have hsame (h : Group) : t.group h =
        ((s.taking p (.stop p group form)).enterStopped g .stoppedNow).group h := by rw [hframe]; rfl
    have hrem : (t.group g).remaining = (s.group g).remaining := by
      rw [hsame, State.enterStopped_group]; simp
    refine ⟨t, by simpa [State.enterStopped_group, runByte] using hans, ⟨?_, ?_, ?_, ?_⟩, hrem, hserved⟩
    · rw [hsame, hgroup]; rfl
    · exact fun h hne => (hsame h).trans (hothers h hne)
    · exact fun l => by rw [hframe]; exact hlegs l
    · rw [hframe, hrest]; rfl
  · have hstop := State.stopGroup_halts (s := s.taking p (.stop p group form)) hrun
    rw [← hform1 hf] at hstop
    obtain ⟨t, hans, hframe, hserved⟩ := answers_of_told hcan (c := .stop p group form) rfl
      (stopBody_accepts hg hflag hhu (by simp [hrun]))
      (by rw [hstop]; exact told_modGroup_raiseAll _ _ _ _)
    rw [hstop] at hans hframe
    refine ⟨t, by simpa [runByte] using hans, fun h => ?_, ?_, hserved⟩
    · rw [hframe]
      exact State.modGroup_group _ _ _ _
    · rw [hframe]; rfl
  · have hsame : (s.taking p (.stop p group form)).stopGroup g atEnd = s.taking p (.stop p group form) :=
      State.stopGroup_same (hrun.imp_right fun ⟨hr, hf⟩ => ⟨hr, hform1 hf⟩)
    have htrip : (s.group g).run ≠ .tripped := by rcases hrun with h | ⟨h, -⟩ <;> simp [h]
    have hbody := stopBody_accepts hg hflag hhu htrip
    rw [hsame] at hbody
    exact answers_of_same hcan rfl hbody

/-! ### CONFIGURE GROUP -/

theorem syncArg_of_byte {b : Byte} {m : SyncMode} (h : syncByte m = b) : syncArg b = some m := by
  subst h; cases m <;> rfl

theorem syncArg_eq_none {b : Byte} : syncArg b = none ↔ 5 < b.toNat := by
  unfold syncArg
  split
  all_goals simp_all
  all_goals omega

theorem stopOutputArg_of_byte {b : Byte} {m : StopOutput} (h : stopByte m = b) : stopOutputArg b = some m := by
  subst h; cases m <;> rfl

theorem stopOutputArg_eq_none {b : Byte} : stopOutputArg b = none ↔ 1 < b.toNat := by
  unfold stopOutputArg
  split
  all_goals simp_all
  all_goals omega

/-- CONFIGURE GROUP changes the two settings and the legs whose held levels it releases (R35). -/
theorem State.configure_group (s : State) (g h : Group) (m : SyncMode) (o : StopOutput) :
    (s.configure g m o).group h = if h = g then { s.group h with sync := m, stopOutput := o } else s.group h := by
  unfold State.configure
  split <;> simp

theorem State.configure_leg (s : State) (g : Group) (m : SyncMode) (o : StopOutput) (l : Leg) :
    (s.configure g m o).leg l =
      if (s.leg l).group = g ∧ (s.group g).stopOutput = .hold then restLeg o (s.leg l) else s.leg l := by
  unfold State.configure
  cases o with
  | hold => simp [restLeg]
  | idle => by_cases hg : (s.leg l).group = g <;> by_cases hh : (s.group g).stopOutput = .hold <;>
      simp [hg, hh, restLeg, LegState.dropOutputs_eq]

theorem State.configure_frame (s : State) (g : Group) (m : SyncMode) (o : StopOutput) :
    s.configure g m o = { s with legs := (s.configure g m o).legs, groups := (s.configure g m o).groups } := by
  unfold State.configure
  split <;> rfl

/-- Settles O42: the refusals in R35's order, and the settings replaced. -/
theorem configureReplacesBothSettings : Obligations.ConfigureReplacesBothSettings := by
  intro p group sync out s hcan
  refine ⟨fun hbad => refuses_of hcan rfl ?_, fun g m o hg hm ho => ?_⟩
  · rcases hbad with h | h | h
    · simp [configureGroupBody, groupArg_eq_none.mpr h]
    · simp [configureGroupBody, syncArg_eq_none.mpr h]
    · simp [configureGroupBody, stopOutputArg_eq_none.mpr h]
  replace hg := groupArg_eq_some.mpr hg
  replace hm := syncArg_of_byte hm
  replace ho := stopOutputArg_of_byte ho
  refine ⟨fun hh => ?_, fun hh => ⟨fun hrun => ?_, fun hrun => ?_⟩⟩
  · have := mt State.holds_iff.mp hh
    exact refuses_of hcan rfl (by simp [configureGroupBody, hg, hm, ho, this])
  all_goals replace hh := State.holds_iff.mpr hh
  · exact refuses_of hcan rfl (by simp [configureGroupBody, hg, hm, ho, hh, hrun])
  · obtain ⟨t, hans, hframe, hserved⟩ := answers_of_accept hcan rfl (c := .configureGroup p group sync out)
      (body := configureGroupBody p group sync out) (data := [])
      (u := (s.taking p (.configureGroup p group sync out)).configure g m o)
      (by simp [configureGroupBody, hg, hm, ho, hh, hrun]) fun q => by rw [State.configure_frame]; rfl
    refine ⟨t, hans, fun h => ?_, fun l => ?_, ?_, hserved⟩
    · rw [hframe]; exact State.configure_group (s.taking p _) g h m o
    · rw [hframe]; exact State.configure_leg (s.taking p _) g m o l
    · rw [hframe, State.configure_frame]; rfl

/-! ### The fallback HALT notice -/

/-- FALLBACK_HALT takes a notice on its way (R37). -/
theorem execFallbackHalt_of_notice {s : State} {g : Group} (hop : s.condition = .operating)
    (hn : (s.group g).haltNotices ≠ 0) :
    exec (.fallbackHalt g) s = .next
      (let t := s.modGroup g fun v => { v with haltNotices := v.haltNotices - 1 }
      if (s.group g).run = .running then
        (t.modGroup g fun v => { v with run := .halting }).raiseAll (.groupState g .fallbackHalt (s.group g).fn)
      else t) := by
  rw [show exec (.fallbackHalt g) s = execFallbackHalt g s from rfl, execFallbackHalt, inOperation_of_operating _ hop,
    if_neg hn]

/-- Settles O44: the notice is taken, and a RUNNING group halts. -/
theorem fallbackHaltHaltsARunningGroup : Obligations.FallbackHaltHaltsARunningGroup := by
  intro g s hop hn
  refine ⟨_, execFallbackHalt_of_notice hop hn.ne', ?_⟩
  by_cases hrun : (s.group g).run = .running
  · simp only [hrun, if_true]
    refine ⟨fun h => ?_, ?_, fun q => ?_⟩
    · by_cases hg : h = g
      · subst hg; simp [hrun]
      · simp [hg]
    · rw [State.raiseAll_frame]; rfl
    · simp [toAll]
  · simp only [hrun, if_false]
    refine ⟨fun h => ?_, rfl, fun q => ?_⟩
    · by_cases hg : h = g
      · subst hg; simp [hrun]
      · simp [hg]
    · simp [noRecords]

/-! ### The reference-clock monitor -/

/-- CLOCK_LOST in PRESENT (R122, R123). -/
theorem execClockLost_of_present {s : State} (hop : s.condition = .operating) (hm : s.monitor = .present) :
    exec .clockLost s = .next
      (({ s with monitor := .lost 0, refclkGap := 0 }.raiseAll (.clock false)).tripGroups s.lossTrips .clock) := by
  have hlost : ¬s.monitor.isLost = true := by rw [hm]; exact nofun
  rw [show exec .clockLost s = execClockLost s from rfl, execClockLost, inOperation_of_operating _ hop, if_neg hlost]

/-- RESTORE_COUNT_RESTART in LOST (R122). -/
theorem execRestoreCountRestart_of_lost {s : State} (hop : s.condition = .operating) (hm : s.monitor.isLost = true) :
    exec .restoreCountRestart s = .next { s with monitor := .lost 0, refclkGap := 0 } := by
  rw [show exec .restoreCountRestart s = execRestoreCountRestart s from rfl, execRestoreCountRestart,
    inOperation_of_operating _ hop, if_pos hm]

/-- CLOCK_RESTORED in LOST (R122). -/
theorem execClockRestored_of_lost {s : State} (hop : s.condition = .operating) (hm : s.monitor.isLost = true) :
    exec .clockRestored s = .next ({ s with monitor := .present }.raiseAll (.clock true)) := by
  rw [show exec .clockRestored s = execClockRestored s from rfl, execClockRestored, inOperation_of_operating _ hop,
    if_pos hm]

/-- Settles O54: a loss is a trip by cause CLOCK behind the CLOCK record, and a restoration changes no group. -/
theorem clockMonitorTripsAndRestores : Obligations.ClockMonitorTripsAndRestores := by
  intro s hop hi
  refine ⟨fun hm => ?_, fun n hm => ?_⟩
  · have hi' : InterlockLaw ({ s with monitor := .lost 0, refclkGap := 0 }.raiseAll (.clock false)) := hi
    obtain ⟨hgroups, hlegs, hsets⟩ := State.tripGroups_trippedBy _ s.lossTrips .clock hi'
    refine ⟨_, execClockLost_of_present hop hm, ⟨hgroups, hlegs, hsets⟩, ?_, fun q => ?_⟩
    · rw [State.tripGroups_frame]; rfl
    · rw [State.tripGroups_told _ _ .clock q, State.raiseAll_port, PortState.afterRecords_append]
      rfl
  · have hlost : s.monitor.isLost = true := by rw [hm]; rfl
    refine ⟨execRestoreCountRestart_of_lost hop hlost, _, execClockRestored_of_lost hop hlost, rfl, fun q => ?_⟩
    rw [State.raiseAll_port]
    rfl

end Sys2Proof.Machine
end

section
/-! PROOFS. Frame starts and frame ends.

The due sets of a frame start are taken one after another; `CommitsTo` says what stands behind a first part of the set table,
and `State.commitFrame_commitsTo` that the whole table comes to stand so. A frame start is read off it. -/

set_option Elab.async false

namespace Sys2Proof.Machine

/-! ### What a validation reads -/

/-- A validation reads the group and record of each leg and the period of the group (R74, R79). -/
theorem State.validate_congr {u v : State} {g : Group} (hgroup : ∀ l, (u.leg l).group = (v.leg l).group)
    (hrecord : ∀ l, (u.leg l).record = (v.leg l).record)
    (hperiod : (u.group g).timing.period = (v.group g).timing.period) (es : List Edit) :
    u.validate g es = v.validate g es := by
  have hleg (l : Leg) : u.legFailure g es l = v.legFailure g es l := by
    simp only [State.legFailure, State.recordFor, State.periodFor, hgroup, hrecord, hperiod]
  simp only [State.validate_eq, hleg]

/-- What becomes of a due set validated against a state (R79, R80, R81). -/
def outcomeAt (g : Group) (f : Frame) (u : State) (c : ChangeSet) : SetOutcome :=
  match u.validate g c.edits with
  | none => .applied f
  | some (why, l) => .failed why l f

theorem outcomeAt_of_passes {g : Group} {f : Frame} {u : State} {c : ChangeSet} (h : u.validate g c.edits = none) :
    outcomeAt g f u c = .applied f := by rw [outcomeAt, h]

theorem outcomeAt_of_fails {g : Group} {f : Frame} {u : State} {c : ChangeSet} {why : CheckFail} {l : Leg}
    (h : u.validate g c.edits = some (why, l)) : outcomeAt g f u c = .failed why l f := by rw [outcomeAt, h]

theorem takenAt_of_not_due {g : Group} {f : Frame} {c : ChangeSet} (h : dueAt g f c = false) (u : State) :
    takenAt g f u c = c := by rw [takenAt, h]; rfl

theorem takenAt_of_due {g : Group} {f : Frame} {c : ChangeSet} (h : dueAt g f c = true) (u : State) :
    takenAt g f u c = { c with body := .done f (outcomeAt g f u c) } := by
  rw [takenAt, if_pos h, outcomeAt]
  cases u.validate g c.edits <;> rfl

theorem takenAt_congr {g : Group} {f : Frame} {u v : State} {c : ChangeSet}
    (h : u.validate g c.edits = v.validate g c.edits) : takenAt g f u c = takenAt g f v c := by
  unfold takenAt
  rw [h]

theorem dueAt_iff {g : Group} {f : Frame} {c : ChangeSet} :
    dueAt g f c = true ↔ c.isPending = true ∧ c.group = g ∧ c.target = f := by
  simp [dueAt, and_assoc]

/-- A due set is PENDING at the frame, so that it becomes DONE there (R78). -/
theorem finish_of_due {g : Group} {f : Frame} {c : ChangeSet} (h : dueAt g f c = true) (o : SetOutcome) :
    c.finish o = { c with body := .done f o } := by
  obtain ⟨hp, -, ht⟩ := dueAt_iff.mp h
  obtain ⟨i, p, g', b⟩ := c
  cases b with
  | pending es target seq => exact ht ▸ rfl
  | opened es => exact nomatch hp
  | done target o => exact nomatch hp

/-! ### Taking one due set -/

theorem State.takeDueSet_group (g : Group) (f : Frame) (s : State) (c : ChangeSet) (h : Group) :
    (State.takeDueSet g f s c).group h =
      if s.validate g c.edits = none then (s.writeEdits g c.edits).group h else s.group h := by
  unfold State.takeDueSet
  split <;> next hv => simp only [State.raise_group, hv, if_true, reduceCtorEq, if_false]; rfl

/-- A due set is rewritten to its outcome (R79, R80, R81). -/
theorem State.takeDueSet_sets_outcome (g : Group) (f : Frame) (s : State) (c : ChangeSet) :
    (State.takeDueSet g f s c).sets =
      s.sets.map fun k => if k.id = c.id then k.finish (outcomeAt g f s c) else k :=
  State.takeDueSet_sets g f s c

/-- The record of a due set goes to its owner (R80, R81). -/
theorem State.takeDueSet_port {g : Group} {f : Frame} (s : State) {c : ChangeSet} (hdue : dueAt g f c = true) (q : Port) :
    (State.takeDueSet g f s c).port q =
      (s.port q).afterRecords (if c.owner = q then outcomeRecord (takenAt g f s c) else []) := by
  obtain ⟨-, rfl, -⟩ := dueAt_iff.mp hdue
  rw [takenAt_of_due hdue]
  unfold State.takeDueSet
  split <;> next hv =>
    simp only [outcomeAt, hv, State.raise_port, outcomeRecord, eq_comm (a := q)]
    rfl

/-- In a table in which no two sets share an id, rewriting by id rewrites one set. -/
theorem map_of_id {a b : List ChangeSet} {c : ChangeSet} (h : ((a ++ c :: b).map ChangeSet.id).Nodup)
    (f : ChangeSet → ChangeSet) : ((a ++ c :: b).map fun k => if k.id = c.id then f k else k) = a ++ f c :: b := by
  rw [List.map_append, List.map_cons, List.nodup_append, List.nodup_cons] at h
  obtain ⟨-, ⟨hb, -⟩, ha⟩ := h
  have before : (a.map fun k => if k.id = c.id then f k else k) = a := by
    refine (List.map_congr_left fun k hk => if_neg ?_).trans (List.map_id a)
    exact ha _ (List.mem_map_of_mem hk) _ (List.mem_cons_self ..)
  have behind : (b.map fun k => if k.id = c.id then f k else k) = b := by
    refine (List.map_congr_left fun k hk => if_neg fun hid => hb ?_).trans (List.map_id b)
    exact hid ▸ List.mem_map_of_mem hk
  rw [List.map_append, List.map_cons, before, behind, if_pos rfl]

/-! ### The edits that a frame start puts in force -/

theorem stagedLeg_append (xs ys : List Edit) (l : Leg) :
    stagedLeg (xs ++ ys) l = (stagedLeg xs l).or (stagedLeg ys l) := List.findSome?_append

theorem stagedTiming_append (xs ys : List Edit) (g : Group) :
    stagedTiming (xs ++ ys) g = (stagedTiming xs g).or (stagedTiming ys g) := List.findSome?_append

/-- The state `u` is `s` with edits in force, as far as the legs and groups go (R80). -/
structure EditsInForce (g : Group) (s : State) (es : List Edit) (u : State) : Prop where
  legs : ∀ l, u.leg l = { s.leg l with record := (stagedLeg es l).getD (s.leg l).record }
  group : u.group g = { s.group g with
    timing := (stagedTiming es g).getD (s.group g).timing
    remaining := ((stagedTiming es g).map TimingRecord.budget).getD (s.group g).remaining }
  others : ∀ h, h ≠ g → u.group h = s.group h
  frame : u = { s with ports := u.ports, legs := u.legs, groups := u.groups, sets := u.sets }

namespace EditsInForce

variable {g : Group} {s u : State} {es : List Edit}

theorem refl (g : Group) (s : State) : EditsInForce g s [] s := ⟨fun _ => rfl, rfl, fun _ _ => rfl, rfl⟩

/-- A validation finds the edits in force as `State.withEdits` writes them. -/
theorem validate_eq (h : EditsInForce g s es u) (xs : List Edit) :
    u.validate g xs = (s.withEdits es).validate g xs := by
  refine State.validate_congr (fun l => ?_) (fun l => ?_) ?_ xs
  · rw [h.legs]; simp [State.withEdits]
  · rw [h.legs]; simp [State.withEdits]
  · rw [h.group]; simp [State.withEdits]

/-- A set that passes puts its edits in force behind those of the sets before it, none of which has an item of its own. -/
theorem takeDueSet_of_passes (h : EditsInForce g s es u) (f : Frame) {c : ChangeSet}
    (hv : u.validate g c.edits = none) (hnew : ∀ x ∈ es, ∀ y ∈ c.edits, x.item ≠ y.item) :
    EditsInForce g s (es ++ c.edits) (State.takeDueSet g f u c) where
  legs l := by
    have hone (r : PatternRecord) (hr : stagedLeg es l = some r) : stagedLeg c.edits l = none :=
      stagedLeg_eq_none.mpr fun y hy => hnew _ (mem_of_stagedLeg hr) _ hy rfl
    rw [State.takeDueSet_leg, if_pos hv, State.recordFor, h.legs, stagedLeg_append]
    cases hs : stagedLeg es l with
    | none => rfl
    | some r => rw [hone r hs]; rfl
  group := by
    have hone (x : TimingRecord) (hx : stagedTiming es g = some x) : stagedTiming c.edits g = none :=
      stagedTiming_eq_none.mpr fun y hy => hnew _ (mem_of_stagedTiming hx) _ hy rfl
    rw [State.takeDueSet_group, if_pos hv, State.writeEdits_group, if_pos rfl, h.group, stagedTiming_append]
    cases hs : stagedTiming es g with
    | none => cases stagedTiming c.edits g <;> rfl
    | some x => rw [hone x hs]; rfl
  others k hk := by
    rw [State.takeDueSet_group, if_pos hv, State.writeEdits_group, if_neg hk]
    exact h.others k hk
  frame := by rw [State.takeDueSet_frame, h.frame]

/-- A set that fails puts nothing in force (R81). -/
theorem takeDueSet_of_fails (h : EditsInForce g s es u) (f : Frame) {c : ChangeSet} (hv : u.validate g c.edits ≠ none) :
    EditsInForce g s es (State.takeDueSet g f u c) where
  legs l := by rw [State.takeDueSet_leg, if_neg hv, h.legs]
  group := by rw [State.takeDueSet_group, if_neg hv, h.group]
  others k hk := by rw [State.takeDueSet_group, if_neg hv, h.others k hk]
  frame := by rw [State.takeDueSet_frame, h.frame]

end EditsInForce

theorem mem_editsApplied {g : Group} {f : Frame} {taken : List (ChangeSet × ChangeSet)} {e : Edit} :
    e ∈ editsApplied g f taken ↔
      ∃ c d, (c, d) ∈ taken ∧ dueAt g f c = true ∧ d.wasApplied = true ∧ e ∈ c.edits := by
  simp only [editsApplied, List.mem_flatMap, Prod.exists]
  refine exists_congr fun c => exists_congr fun d => and_congr_right fun _ => ?_
  cases dueAt g f c <;> cases d.wasApplied <;> simp

theorem editsApplied_append (g : Group) (f : Frame) (taken : List (ChangeSet × ChangeSet)) (c d : ChangeSet) :
    editsApplied g f (taken ++ [(c, d)]) =
      editsApplied g f taken ++ if dueAt g f c && d.wasApplied then c.edits else [] := by
  simp [editsApplied]

/-- The records that sets paired with what became of them raise to port `q` (R80, R81, R83). -/
def recordsOf (g : Group) (f : Frame) (taken : List (ChangeSet × ChangeSet)) (q : Port) : List Event :=
  taken.flatMap fun (c, d) => if dueAt g f c && decide (c.owner = q) then outcomeRecord d else []

theorem frameRecords_eq (g : Group) (f : Frame) (s t : State) (q : Port) :
    frameRecords g f s t q = recordsOf g f (s.sets.zip t.sets) q := rfl

theorem recordsOf_append (g : Group) (f : Frame) (taken : List (ChangeSet × ChangeSet)) (c d : ChangeSet) (q : Port) :
    recordsOf g f (taken ++ [(c, d)]) q =
      recordsOf g f taken q ++ if dueAt g f c && decide (c.owner = q) then outcomeRecord d else [] := by
  simp [recordsOf]

/-! ### The commit unit's part of a frame start -/

/-- The state `u` when a first part of the set table of `s` has been gone through, each set of it paired with what became of
it, and `rest` is still to come (R78 to R83). -/
structure CommitsTo (g : Group) (f : Frame) (s : State) (taken : List (ChangeSet × ChangeSet)) (rest : List ChangeSet)
    (u : State) : Prop where
  before : s.sets = taken.map Prod.fst ++ rest
  sets : u.sets = taken.map Prod.snd ++ rest
  ids : u.sets.map ChangeSet.id = s.sets.map ChangeSet.id
  outcomes : ∀ n c d, taken[n]? = some (c, d) →
    d = takenAt g f (s.withEdits (editsApplied g f (taken.take n))) c
  single : ((editsApplied g f taken).map Edit.item).Nodup
  inForce : EditsInForce g s (editsApplied g f taken) u
  told : Told (recordsOf g f taken) s u

namespace CommitsTo

variable {g : Group} {f : Frame} {s u : State} {taken : List (ChangeSet × ChangeSet)} {rest : List ChangeSet}
  {c : ChangeSet}

theorem start (g : Group) (f : Frame) (s : State) : CommitsTo g f s [] s.sets s where
  before := rfl
  sets := rfl
  ids := rfl
  outcomes _ _ _ h := nomatch h
  single := .nil
  inForce := .refl g s
  told _ := (PortState.afterRecords_nil _).symm

/-- What a further set becomes is said by the outcomes of the sets before it. -/
theorem outcomes_snoc (h : CommitsTo g f s taken rest u) {d : ChangeSet}
    (hd : d = takenAt g f (s.withEdits (editsApplied g f taken)) c) (n : Nat) (x y : ChangeSet)
    (hn : (taken ++ [(c, d)])[n]? = some (x, y)) :
    y = takenAt g f (s.withEdits (editsApplied g f ((taken ++ [(c, d)]).take n))) x := by
  rcases Nat.lt_trichotomy n taken.length with hlt | rfl | hgt
  · rw [List.getElem?_append_left hlt] at hn
    rw [List.take_append_of_le_length hlt.le]
    exact h.outcomes n x y hn
  · rw [List.getElem?_append_right (Nat.le_refl _), Nat.sub_self] at hn
    cases hn
    rw [List.take_left']
    · exact hd
    · rfl
  · rw [List.getElem?_eq_none (by simp; omega)] at hn
    exact nomatch hn

/-- A set that is not due is passed over. -/
theorem skip (h : CommitsTo g f s taken (c :: rest) u) (hdue : dueAt g f c = false) :
    CommitsTo g f s (taken ++ [(c, c)]) rest u where
  before := by rw [h.before]; simp
  sets := by rw [h.sets]; simp
  ids := h.ids
  outcomes := h.outcomes_snoc (takenAt_of_not_due hdue _).symm
  single := by simpa [editsApplied_append, hdue] using h.single
  inForce := by simpa [editsApplied_append, hdue] using h.inForce
  told q := by simpa [recordsOf_append, hdue] using h.told q

/-- Two PENDING sets share no item (R72), so that a due set edits nothing that the sets before it have put in force. -/
theorem items_new (h : CommitsTo g f s taken (c :: rest) u) (hpend : PendingItemLaw s) (hdue : dueAt g f c = true) :
    ∀ x ∈ editsApplied g f taken, ∀ y ∈ c.edits, x.item ≠ y.item := by
  intro x hx y hy hxy
  obtain ⟨k, d, hmem, hk, -, hxk⟩ := mem_editsApplied.mp hx
  unfold PendingItemLaw at hpend
  rw [h.before, List.pairwise_append] at hpend
  obtain ⟨-, -, hcross⟩ := hpend
  obtain ⟨hkp, -, -⟩ := dueAt_iff.mp hk
  obtain ⟨hcp, -, -⟩ := dueAt_iff.mp hdue
  refine hcross k (List.mem_map_of_mem (f := Prod.fst) hmem) c (List.mem_cons_self ..) hkp hcp y.item ⟨?_, ?_⟩
  · exact List.any_eq_true.mpr ⟨x, hxk, by simpa using hxy⟩
  · exact List.any_eq_true.mpr ⟨y, hy, by simp⟩

/-- A due set is taken against the state that the sets before it have left (R78, R79). -/
theorem take (h : CommitsTo g f s taken (c :: rest) u) (hids : (s.sets.map ChangeSet.id).Nodup)
    (hsingle : (c.edits.map Edit.item).Nodup) (hpend : PendingItemLaw s) (hdue : dueAt g f c = true) :
    CommitsTo g f s (taken ++ [(c, takenAt g f u c)]) rest (State.takeDueSet g f u c) := by
  have hnew := h.items_new hpend hdue
  have hsets : (State.takeDueSet g f u c).sets = taken.map Prod.snd ++ takenAt g f u c :: rest := by
    rw [State.takeDueSet_sets_outcome, h.sets, map_of_id (by rw [← h.sets, h.ids]; exact hids), finish_of_due hdue,
      takenAt_of_due hdue]
  have hafter : EditsInForce g s (editsApplied g f (taken ++ [(c, takenAt g f u c)])) (State.takeDueSet g f u c) ∧
      ((editsApplied g f (taken ++ [(c, takenAt g f u c)])).map Edit.item).Nodup := by
    rw [editsApplied_append, takenAt_of_due hdue, hdue]
    cases hv : u.validate g c.edits with
    | none =>
      rw [outcomeAt_of_passes hv]
      refine ⟨h.inForce.takeDueSet_of_passes f hv hnew, ?_⟩
      rw [Bool.true_and, ChangeSet.wasApplied, if_pos rfl, List.map_append, List.nodup_append]
      refine ⟨h.single, hsingle, fun a ha b hb => ?_⟩
      obtain ⟨x, hx, rfl⟩ := List.mem_map.mp ha
      obtain ⟨y, hy, rfl⟩ := List.mem_map.mp hb
      exact hnew x hx y hy
    | some failure =>
      rw [outcomeAt_of_fails hv, Bool.true_and, ChangeSet.wasApplied, if_neg Bool.false_ne_true, List.append_nil]
      exact ⟨h.inForce.takeDueSet_of_fails f (by simp [hv]), h.single⟩
  obtain ⟨hinForce, hnodup⟩ := hafter
  refine ⟨?_, ?_, ?_, ?_, hnodup, hinForce, fun q => ?_⟩
  · rw [h.before]; simp
  · rw [hsets]; simp
  · rw [hsets, ← h.ids, h.sets, takenAt_of_due hdue]; simp
  · exact h.outcomes_snoc (takenAt_congr (h.inForce.validate_eq _))
  · rw [State.takeDueSet_port u hdue, h.told q, PortState.afterRecords_append, recordsOf_append, hdue, Bool.true_and]
    simp only [decide_eq_true_eq]

/-- What the whole table has become, each set paired with its outcome. -/
theorem zip_eq (h : CommitsTo g f s taken [] u) : s.sets.zip u.sets = taken := by
  rw [h.before, h.sets, List.append_nil, List.append_nil]
  exact (List.zip_of_prod rfl rfl).symm

end CommitsTo

theorem State.dueSets_eq (s : State) (g : Group) (f : Frame) : s.dueSets g f = s.sets.filter (dueAt g f) := by
  rw [State.dueSets, State.pendingIn, List.filter_filter]
  exact List.filter_congr fun c _ => Bool.and_comm _ _

/-- Of the sets of a table, the due ones are taken and the others are passed over. -/
theorem State.commitFrame_eq_foldl (s : State) (g : Group) (f : Frame) :
    s.commitFrame g f = s.sets.foldl (fun u c => if dueAt g f c then State.takeDueSet g f u c else u) s := by
  rw [State.commitFrame, State.dueSets_eq, List.foldl_filter]

/-- The commit unit's part of a frame start, for the whole table (R78 to R83). -/
theorem State.commitFrame_commitsTo {s : State} (hids : (s.sets.map ChangeSet.id).Nodup)
    (hsingle : ∀ c ∈ s.sets, (c.edits.map Edit.item).Nodup) (hpend : PendingItemLaw s) (g : Group) (f : Frame) :
    CommitsTo g f s (s.sets.zip (s.commitFrame g f).sets) [] (s.commitFrame g f) := by
  have run (rest : List ChangeSet) : ∀ taken u, CommitsTo g f s taken rest u → ∃ all,
      CommitsTo g f s all [] (rest.foldl (fun u c => if dueAt g f c then State.takeDueSet g f u c else u) u) := by
    induction rest with
    | nil => exact fun taken u h => ⟨taken, h⟩
    | cons c rest ih =>
      intro taken u h
      have hc : c ∈ s.sets := by rw [h.before]; simp
      cases hdue : dueAt g f c with
      | false => simpa [hdue] using ih _ _ (h.skip hdue)
      | true => simpa [hdue] using ih _ _ (h.take hids (hsingle c hc) hpend hdue)
  obtain ⟨all, h⟩ := run s.sets [] s (.start g f s)
  rw [← State.commitFrame_eq_foldl] at h
  rw [h.zip_eq]
  exact h

end Sys2Proof.Machine
end

section
/-! PROOFS. A frame start: what it leaves of the group, the sets, the legs and the queues, read off the commit unit. -/

set_option Elab.async false

namespace Sys2Proof.Machine

/-! ### A frame start -/

/-- The state in which the commit unit takes the due sets of a frame start: FN has advanced (R25, R26). -/
def State.advanceFrame (s : State) (g : Group) : State := s.modGroup g fun v => { v with fn := v.fn + 1 }

/-- The state that the commit unit's part of a frame start leaves (R26, R78). -/
def State.committed (s : State) (g : Group) : State := (s.advanceFrame g).commitFrame g ((s.group g).fn + 1)

/-- A frame start is the commit unit's part, the group RUNNING on tick 0, and the evaluation of that tick (R26). -/
theorem State.frameStart_eq (s : State) (g : Group) (first : Bool) :
    s.frameStart g first = ((s.committed g).modGroup g fun v =>
      { v with
        run := .running, tick := 0, division := 0
        remaining := if first then v.timing.budget else v.remaining }).tickStart g first 0 := by
  have hfn : ((s.advanceFrame g).group g).fn = (s.group g).fn + 1 := by simp [State.advanceFrame]
  rw [State.committed, ← hfn]
  rfl

section frameStart
variable (s : State) (g : Group) (first : Bool)

theorem State.frameStart_sets : (s.frameStart g first).sets = (s.committed g).sets := by
  rw [State.frameStart_eq]; rfl

theorem State.frameStart_port (q : Port) : (s.frameStart g first).port q = (s.committed g).port q := by
  rw [State.frameStart_eq]; rfl

theorem State.frameStart_group (h : Group) :
    (s.frameStart g first).group h =
      if h = g then { (s.committed g).group h with
        run := .running, tick := 0, division := 0
        remaining := if first then ((s.committed g).group h).timing.budget else ((s.committed g).group h).remaining }
      else (s.committed g).group h := by
  rw [State.frameStart_eq, State.tickStart_frame]
  exact State.modGroup_group _ _ _ _

theorem State.frameStart_leg {l : Leg}
    (hl : ¬(((s.committed g).leg l).outA.state = .active ∧ ((s.committed g).leg l).outB.state = .active)) :
    (s.frameStart g first).leg l =
      if ((s.committed g).leg l).group = g then
        tickLeg first ((s.committed g).group g).timing.period 0 ((s.committed g).leg l)
      else (s.committed g).leg l := by
  rw [State.frameStart_eq, State.tickStart_leg _ _ _ _ _ (by rw [State.modGroup_leg]; exact hl)]
  simp

/-- What a frame start leaves as it was, whatever the sets (R26). -/
theorem State.frameStart_frame {es : List Edit} (h : EditsInForce g (s.advanceFrame g) es (s.committed g)) :
    s.frameStart g first = { s with
      ports := (s.frameStart g first).ports
      legs := (s.frameStart g first).legs
      groups := (s.frameStart g first).groups
      sets := (s.frameStart g first).sets } := by
  rw [State.frameStart_eq, State.tickStart_frame, h.frame]
  rfl

end frameStart

/-- The edits of a set are for legs of its group and for that group itself (R46, R57). -/
def HomeTable (s : State) : Prop :=
  ∀ c ∈ s.sets, ∀ e ∈ c.edits, (∀ l, e.item = .leg l → (s.leg l).group = c.group) ∧
    ∀ g, e.item = .group g → g = c.group

theorem LeaseLaw.homeTable {s : State} (h : LeaseLaw s) : HomeTable s := fun c hc e he =>
  let ⟨_, hleg, hgroup⟩ := h c hc e he
  ⟨hleg, hgroup⟩

section frameStart
variable {s : State} {g : Group}

theorem State.committed_commitsTo (htable : TableLaw s) (hpend : PendingItemLaw s) (g : Group) :
    CommitsTo g ((s.group g).fn + 1) (s.advanceFrame g) (s.sets.zip (s.committed g).sets) [] (s.committed g) :=
  State.commitFrame_commitsTo (s := s.advanceFrame g) htable.ids htable.single hpend g _

/-- The edits that the frame start of `g` puts in force (R80). -/
def State.frameEdits (s : State) (g : Group) : List Edit :=
  editsApplied g ((s.group g).fn + 1) (s.sets.zip (s.committed g).sets)

theorem mem_frameEdits {e : Edit} :
    e ∈ s.frameEdits g ↔ ∃ c d, (c, d) ∈ s.sets.zip (s.committed g).sets ∧
      dueAt g ((s.group g).fn + 1) c = true ∧ d.wasApplied = true ∧ e ∈ c.edits := mem_editsApplied

/-- What no applied set edits carries no edit of the frame start. -/
theorem not_mem_frameEdits {i : Item}
    (h : ∀ c d, (c, d) ∈ s.sets.zip (s.committed g).sets → dueAt g ((s.group g).fn + 1) c = true →
      d.wasApplied = true → c.hasEdit i = false) {e : Edit} (he : e ∈ s.frameEdits g) : e.item ≠ i := by
  obtain ⟨c, d, hmem, hdue, happ, hec⟩ := mem_frameEdits.mp he
  rintro rfl
  have := h c d hmem hdue happ
  rw [ChangeSet.hasEdit, List.any_eq_false] at this
  exact this e hec (by simp)

/-- The edits of a frame start are for the legs of its group and for that group (R46). -/
theorem HomeTable.frameEdits (h : HomeTable s) {e : Edit} (he : e ∈ s.frameEdits g) :
    (∀ l, e.item = .leg l → (s.leg l).group = g) ∧ ∀ k, e.item = .group k → k = g := by
  obtain ⟨c, d, hmem, hdue, -, hec⟩ := mem_frameEdits.mp he
  obtain ⟨-, hgroup, -⟩ := dueAt_iff.mp hdue
  rw [← hgroup]
  exact h c (List.of_mem_zip hmem).1 e hec

theorem State.committed_inForce (htable : TableLaw s) (hpend : PendingItemLaw s) (g : Group) :
    EditsInForce g (s.advanceFrame g) (s.frameEdits g) (s.committed g) :=
  (State.committed_commitsTo htable hpend g).inForce

theorem State.frameEdits_single (htable : TableLaw s) (hpend : PendingItemLaw s) (g : Group) :
    ((s.frameEdits g).map Edit.item).Nodup :=
  (State.committed_commitsTo htable hpend g).single

theorem State.committed_length (htable : TableLaw s) (hpend : PendingItemLaw s) (g : Group) :
    (s.committed g).sets.length = s.sets.length := by
  simpa [State.advanceFrame] using congrArg List.length (State.committed_commitsTo htable hpend g).ids

theorem zip_take_left {α β : Type} (n : Nat) (xs : List α) (ys : List β) :
    (xs.zip ys).take n = (xs.take n).zip ys := by
  induction xs generalizing n ys with
  | nil => simp
  | cons x xs ih =>
    cases n with
    | zero => simp
    | succ n => cases ys with
      | nil => simp
      | cons y ys => simp [ih]

/-- What becomes of each set at a frame start (R78 to R81). -/
theorem State.committed_sets (htable : TableLaw s) (hpend : PendingItemLaw s) {n : Nat} {c : ChangeSet}
    (hn : s.sets[n]? = some c) : (s.committed g).sets[n]? = some (takenAt g ((s.group g).fn + 1)
      (s.withEdits (editsApplied g ((s.group g).fn + 1) ((s.sets.take n).zip (s.committed g).sets))) c) := by
  have hc := State.committed_commitsTo htable hpend g
  obtain ⟨hlt, -⟩ := List.getElem?_eq_some_iff.mp hn
  have hd := List.getElem?_eq_getElem ((State.committed_length htable hpend g).symm ▸ hlt)
  have hout := hc.outcomes n c _ (List.getElem?_zip_eq_some.mpr ⟨hn, hd⟩)
  rw [hd, hout, zip_take_left]
  refine congrArg some (takenAt_congr ?_)
  apply State.validate_congr <;> simp [State.withEdits, State.advanceFrame]

/-- The remaining budget that a frame start leaves (R28, R82). -/
theorem State.frameStart_remaining (htable : TableLaw s) (hpend : PendingItemLaw s) (first : Bool) :
    ((s.frameStart g first).group g).remaining =
      if first then ((s.frameStart g first).group g).timing.budget
      else ((stagedTiming (s.frameEdits g) g).map TimingRecord.budget).getD (s.group g).remaining := by
  cases first with
  | true => simp [State.frameStart_group]
  | false =>
    rw [State.frameStart_group, if_pos rfl, (State.committed_inForce htable hpend g).group]
    simp [State.advanceFrame]

/-- The records of a frame start (R80, R81, R83). -/
theorem State.frameStart_told (htable : TableLaw s) (hpend : PendingItemLaw s) (first : Bool) :
    Told (frameRecords g ((s.group g).fn + 1) s (s.frameStart g first)) s (s.frameStart g first) := fun q => by
  rw [frameRecords_eq, State.frameStart_sets, State.frameStart_port]
  exact (State.committed_commitsTo htable hpend g).told q

/-- The timing of the group behind a frame start (R80, R82). -/
theorem State.frameStart_timing (htable : TableLaw s) (hpend : PendingItemLaw s) (first : Bool) :
    ((s.frameStart g first).group g).timing = (stagedTiming (s.frameEdits g) g).getD (s.group g).timing := by
  rw [State.frameStart_group, if_pos rfl, (State.committed_inForce htable hpend g).group]
  simp [State.advanceFrame]

/-- Each leg behind a frame start: the record in force, and the evaluation of tick 0 (R6, R80). -/
theorem State.frameStart_leg_inForce (htable : TableLaw s) (hpend : PendingItemLaw s) (hi : InterlockLaw s)
    (first : Bool) (l : Leg) :
    (s.frameStart g first).leg l =
      if (s.leg l).group = g then
        tickLeg first ((s.frameStart g first).group g).timing.period 0
          { s.leg l with record := (stagedLeg (s.frameEdits g) l).getD (s.leg l).record }
      else { s.leg l with record := (stagedLeg (s.frameEdits g) l).getD (s.leg l).record } := by
  have hleg : (s.committed g).leg l =
      { s.leg l with record := (stagedLeg (s.frameEdits g) l).getD (s.leg l).record } :=
    (State.committed_inForce htable hpend g).legs l
  have hperiod : ((s.committed g).group g).timing = ((s.frameStart g first).group g).timing := by
    rw [State.frameStart_group, if_pos rfl]
  rw [State.frameStart_leg s g first (by rw [hleg]; exact (hi l).1), hleg, hperiod]

theorem State.frameStart_record (htable : TableLaw s) (hpend : PendingItemLaw s) (hi : InterlockLaw s)
    (first : Bool) (l : Leg) :
    ((s.frameStart g first).leg l).record = (stagedLeg (s.frameEdits g) l).getD (s.leg l).record := by
  rw [State.frameStart_leg_inForce htable hpend hi]
  split <;> rfl

/-- A frame start, from rest or behind another frame (R25, R26, R44, R78 to R83). -/
theorem State.frameStart_starts (htable : TableLaw s) (hlease : LeaseLaw s) (hpend : PendingItemLaw s)
    (hi : InterlockLaw s) (first : Bool) : FrameStarts g first s (s.frameStart g first) := by
  have hforce := State.committed_inForce htable hpend g
  have hsingle := State.frameEdits_single htable hpend g
  have hhome (e : Edit) (he : e ∈ s.frameEdits g) := hlease.homeTable.frameEdits he
  have hrecord := State.frameStart_record (g := g) htable hpend hi first
  have htiming := State.frameStart_timing (g := g) htable hpend first
  constructor
  case group =>
    rw [State.frameStart_group, if_pos rfl, hforce.group]
    simp [State.advanceFrame]
  case others =>
    intro h hne
    rw [State.frameStart_group, if_neg hne, hforce.others h hne]
    simp [State.advanceFrame, hne]
  case count =>
    rw [State.frameStart_sets]
    exact State.committed_length htable hpend g
  case sets =>
    intro n c hn
    rw [State.frameStart_sets]
    exact State.committed_sets htable hpend hn
  case whole =>
    intro c d hmem hdue happ e he
    rw [State.frameStart_sets] at hmem
    have hin : e ∈ s.frameEdits g := mem_frameEdits.mpr ⟨c, d, hmem, hdue, happ, he⟩
    cases e with
    | leg l r =>
      rw [Edit.InForce, hrecord, (stagedLeg_eq_some_iff hsingle).mpr hin]
      rfl
    | group k x =>
      obtain rfl : k = g := (hhome _ hin).2 k rfl
      rw [Edit.InForce, htiming, (stagedTiming_eq_some_iff hsingle).mpr hin]
      rfl
  case keptRecords =>
    intro l hkept
    rw [State.frameStart_sets] at hkept
    rw [hrecord, stagedLeg_eq_none.mpr fun r hr => not_mem_frameEdits hkept hr rfl]
    rfl
  case keptTiming =>
    intro hkept
    rw [State.frameStart_sets] at hkept
    rw [htiming, stagedTiming_eq_none.mpr fun x hx => not_mem_frameEdits hkept hx rfl]
    rfl
  case legs =>
    intro l
    rw [hrecord, State.frameStart_leg_inForce htable hpend hi]
    by_cases hg : (s.leg l).group = g
    · rw [if_pos hg, if_pos hg]
    · have hnone : stagedLeg (s.frameEdits g) l = none :=
        stagedLeg_eq_none.mpr fun r hr => hg ((hhome _ hr).1 l rfl)
      rw [if_neg hg, if_neg hg, hnone]
      rfl
  case frame => exact State.frameStart_frame s g first hforce

end frameStart

end Sys2Proof.Machine
end

section
/-! PROOFS. The commands and rows that start or end a frame: START from rest, FRAME_END and SYNC_EDGE. -/

set_option Elab.async false

namespace Sys2Proof.Machine

/-! ### The laws that a frame start reads -/

theorem TableLaw.of_sets {s t : State} (h : TableLaw s) (hsets : t.sets = s.sets) (hnext : t.nextId = s.nextId) :
    TableLaw t where
  slots := hsets ▸ h.slots
  pool := by rw [State.poolUsed, hsets]; exact h.pool
  opened p := by rw [State.openCount, hsets]; exact h.opened p
  limit p := by rw [State.pendingCount, State.doneCount, hsets]; exact h.limit p
  ids := hsets ▸ h.ids
  idRange := hsets ▸ h.idRange
  nextRange := hnext ▸ h.nextRange
  single := hsets ▸ h.single

/-- The laws on which a frame start rests, together. -/
structure FrameLaws (s : State) : Prop where
  table : TableLaw s
  lease : LeaseLaw s
  pendingItems : PendingItemLaw s
  interlock : InterlockLaw s

/-- They read the legs, the sets, the ids and the holders. -/
theorem FrameLaws.of_same {s t : State} (h : FrameLaws s) (hlegs : t.legs = s.legs) (hsets : t.sets = s.sets)
    (hnext : t.nextId = s.nextId) (hholder : ∀ g, (t.group g).holder = (s.group g).holder) : FrameLaws t where
  table := h.table.of_sets hsets hnext
  lease c hc e he := by
    have hleg (l : Leg) : t.leg l = s.leg l := by rw [State.leg, hlegs]; rfl
    have hitem (i : Item) : t.holder i = s.holder i := by
      cases i with
      | leg l => rw [State.holder, State.holder, hleg]
      | group g => rw [State.holder, State.holder, hholder]
    rw [hitem]
    simpa only [hleg] using h.lease c (hsets ▸ hc) e he
  pendingItems := by rw [PendingItemLaw, hsets]; exact h.pendingItems
  interlock l := by rw [State.leg, hlegs]; exact h.interlock l

theorem FrameLaws.starts {s : State} (h : FrameLaws s) (g : Group) (first : Bool) :
    FrameStarts g first s (s.frameStart g first) :=
  State.frameStart_starts h.table h.lease h.pendingItems h.interlock first

/-- A frame start said of a state that differs in ports and in the remaining budget of the group alone. -/
theorem FrameStarts.transfer {g : Group} {first : Bool} {s s' t t' : State} (h : FrameStarts g first s' t')
    (hs : s' = { s with ports := s'.ports, groups := s'.groups })
    (hgroup : s'.group g = { s.group g with remaining := (s'.group g).remaining })
    (hothers : ∀ k, k ≠ g → s'.group k = s.group k) (ht : t = { t' with ports := t.ports }) :
    FrameStarts g first s t := by
  obtain ⟨ps, gs, rfl⟩ : ∃ ps gs, s' = { s with ports := ps, groups := gs } := ⟨_, _, hs⟩
  obtain ⟨qs, rfl⟩ : ∃ qs, t = { t' with ports := qs } := ⟨_, ht⟩
  have hfn : (gs.get g).fn = (s.group g).fn := by simpa using congrArg GroupState.fn hgroup
  have htiming : (gs.get g).timing = (s.group g).timing := by simpa using congrArg GroupState.timing hgroup
  obtain ⟨hstart, hrest, hcount, hsets, hwhole, hrecords, hkept, hlegs, hframe⟩ := h
  simp only [State.group_mk, hfn, htiming] at hstart hsets hwhole hrecords hkept hgroup
  refine ⟨?_, fun k hk => (hrest k hk).trans (hothers k hk), hcount, fun n c hn => ?_, fun c d hm hd ha e he => ?_,
    hrecords, hkept, hlegs, ?_⟩
  · exact hstart.trans (by rw [hgroup]; rfl)
  · refine (hsets n c hn).trans (congrArg some (takenAt_congr ?_))
    apply State.validate_congr <;> simp [State.withEdits, htiming]
  · exact hwhole c d hm hd ha e he
  · exact congrArg (fun x => { x with ports := qs }) hframe

/-! ### START from rest -/

/-- START in a STOPPED group in no START mode (R29). -/
theorem State.startGroup_starts {s : State} {g : Group} (hrun : (s.group g).run = .stopped)
    (hsync : (s.group g).sync.isStart = false) :
    s.startGroup g = (s.frameStart g true).raiseAll (.groupState g .started ((s.frameStart g true).group g).fn) := by
  simp only [State.startGroup, hrun, hsync, Bool.false_eq_true, if_false]

/-- A frame start from rest with its GROUP_STATE record behind those of the due sets (R29, R33, R83). -/
theorem State.frameStart_told_raiseAll {s : State} {g : Group} (htable : TableLaw s) (hpend : PendingItemLaw s)
    (e : Event) : Told (fun q => frameRecords g ((s.group g).fn + 1) s (s.frameStart g true) q ++ [e]) s
      ((s.frameStart g true).raiseAll e) := fun q => by
  rw [State.raiseAll_port, State.frameStart_told htable hpend true q, PortState.afterRecords_append]

/-- START from rest that passes R29's refusals. -/
theorem startBody_starts {s : State} {p : Port} {group : Byte} {g : Group} (hg : groupArg group = some g)
    (hh : s.holder (.group g) = some p) (hrun : (s.group g).run = .stopped) (hclock : s.monitor = .present)
    (hrise : (s.group g).sync ≠ .startRise) (hfall : (s.group g).sync ≠ .startFall) :
    startBody p group s = accept
      ((s.frameStart g true).raiseAll (.groupState g .started ((s.frameStart g true).group g).fn))
      (runByte ((s.frameStart g true).group g).run :: frameBytes ((s.frameStart g true).group g).fn) := by
  have hsync : (s.group g).sync.isStart = false := by
    rw [Bool.eq_false_iff, Ne, SyncMode.isStart_iff]
    exact fun h => h.elim hrise hfall
  rw [startBody_accepts hg hh (by simp [hrun]) fun _ => hclock, State.startGroup_starts hrun hsync,
    State.raiseAll_group]

/-- Settles O39: START from rest is a frame start with the STARTED record behind it. -/
theorem startBeginsAFrame : Obligations.StartBeginsAFrame := by
  intro p group g s hcan htable hlease hpend hi hg hh hrun hclock hrise hfall
  have hlaws : FrameLaws (s.taking p (.start p group)) :=
    (FrameLaws.mk htable hlease hpend hi).of_same rfl rfl rfl fun _ => rfl
  have hstarts := hlaws.starts g true
  have hrunning : (((s.taking p (.start p group)).frameStart g true).group g).run = .running := by rw [hstarts.group]
  have hfn : (((s.taking p (.start p group)).frameStart g true).group g).fn = (s.group g).fn + 1 := by
    rw [hstarts.group]; rfl
  have hbody := startBody_starts (s := s.taking p (.start p group)) (groupArg_eq_some.mpr hg) hh hrun hclock hrise hfall
  rw [hrunning, hfn] at hbody
  obtain ⟨t, hans, hframe, hserved⟩ :=
    answers_of_told hcan rfl hbody (State.frameStart_told_raiseAll hlaws.table hlaws.pendingItems _)
  have hgroup : t.group g = ((s.taking p (.start p group)).frameStart g true).group g := by rw [hframe]; rfl
  have hsets : t.sets = ((s.taking p (.start p group)).frameStart g true).sets := by rw [hframe]; rfl
  refine ⟨t, hans, hstarts.transfer rfl rfl (fun _ _ => rfl) (by rw [hframe]; rfl), ?_, ?_⟩
  · rw [hgroup, State.frameStart_remaining hlaws.table hlaws.pendingItems, if_pos rfl]
  · simp only [frameRecords_eq, hsets]
    exact hserved

/-! ### The end of a frame -/

/-- The remaining count after a frame end: with a budget one less (R28). -/
def GroupState.left (v : GroupState) : Nat := if v.timing.budget = 0 then v.remaining else v.remaining - 1

/-- The state with the frame under way of a group counted off its budget (R28). -/
def State.countFrame (s : State) (g : Group) : State := s.modGroup g fun v => { v with remaining := (s.group g).left }

@[simp] theorem State.countFrame_group (s : State) (g h : Group) :
    (s.countFrame g).group h = if h = g then { s.group h with remaining := (s.group g).left } else s.group h :=
  State.modGroup_group s g _ h

/-- A frame end by the budget and the run state (R26, R27, R28, R31). -/
theorem State.endFrame_eq (s : State) (g : Group) :
    s.endFrame g =
      if (s.group g).timing.budget ≠ 0 ∧ (s.group g).left = 0 then (s.countFrame g).enterStopped g .budget
      else if (s.group g).run = .halting then (s.countFrame g).enterStopped g .halted
      else (s.countFrame g).frameStart g false := by
  have hcount : (s.modGroup g fun v => { v with
      remaining := if decide ((s.group g).timing.budget ≠ 0) then v.remaining - 1 else v.remaining }) =
      s.countFrame g := by
    rw [State.countFrame, State.modGroup, State.modGroup, State.mapGroups, State.mapGroups]
    congr 1
    apply PerGroup.ext_get
    intro k
    by_cases hk : k = g
    · subst hk
      by_cases hb : (s.group k).timing.budget = 0 <;> simp [GroupState.left, hb]
    · simp [hk]
  unfold State.endFrame
  dsimp only
  rw [hcount]
  simp only [State.countFrame_group, if_true, Bool.and_eq_true, decide_eq_true_eq]

/-- Entering STOPPED at a frame end (R27, R28, R31). -/
theorem State.countFrame_stops (s : State) (g : Group) (why : GroupReason) :
    Stops g s ((s.countFrame g).enterStopped g why) := by
  obtain ⟨hgroup, hothers, hlegs, hframe⟩ := State.enterStopped_stops (s.countFrame g) g why
  refine ⟨?_, fun h hne => ?_, fun l => ?_, ?_⟩
  · rw [hgroup]; simp
  · rw [hothers h hne]; simp [hne]
  · rw [hlegs]; simp [State.countFrame]
  · rw [hframe]; rfl

theorem State.countFrame_enterStopped_remaining (s : State) (g : Group) (why : GroupReason) :
    (((s.countFrame g).enterStopped g why).group g).remaining = (s.group g).left := by
  rw [State.enterStopped_group]; simp

theorem State.countFrame_told (s : State) (g : Group) (why : GroupReason) :
    Told (toAll (.groupState g why (s.group g).fn)) s ((s.countFrame g).enterStopped g why) := fun q => by
  rw [told_enterStopped _ g why q]
  simp [toAll, State.countFrame]

theorem State.ticking_iff {s : State} {g : Group} :
    s.ticking g = true ↔ (s.group g).run = .running ∨ (s.group g).run = .halting := by simp [State.ticking]

/-- FRAME_END at the last tick of a frame, or past it (R24). -/
theorem execFrameEnd_of_last {s : State} {g : Group} (hop : s.condition = .operating)
    (hrun : (s.group g).run = .running ∨ (s.group g).run = .halting)
    (hlast : (s.group g).timing.period ≤ (s.group g).tick + 1) :
    exec (.frameEnd g) s = .next ((clocked s).endFrame g) := by
  have hcond : ((clocked s).ticking g && (clocked s).lastTick g) = true := by
    rw [Bool.and_eq_true, State.ticking_iff, State.lastTick, decide_eq_true_eq]
    exact ⟨hrun, hlast⟩
  rw [show exec (.frameEnd g) s = execFrameEnd g s from rfl, execFrameEnd, onRefclk_of_operating _ hop, if_pos hcond]

/-! ### Sync edges -/

theorem SyncMode.startsOn_iff {m : SyncMode} {rising : Bool} : m.startsOn rising = true ↔ startSelects m rising := by
  cases m <;> cases rising <;> simp [SyncMode.startsOn, startSelects]

theorem SyncMode.resyncsOn_iff {m : SyncMode} {rising : Bool} : m.resyncsOn rising = true ↔ resyncSelects m rising := by
  cases m <;> cases rising <;> simp [SyncMode.resyncsOn, resyncSelects]

/-- A direction whose level is recognised already brings no edge (R165). -/
theorem execSyncEdge_of_level {s : State} {g : Group} {rising : Bool} (hop : s.condition = .operating)
    (hlevel : (s.syncInput g).level = rising) : exec (.syncEdge g rising) s = .next (clocked s) := by
  rw [show exec (.syncEdge g rising) s = execSyncEdge g rising s from rfl, execSyncEdge, onRefclk_of_operating _ hop]
  rw [if_pos (show ((clocked s).syncInput g).level = rising from hlevel)]

/-- Another level is recognised, and the group takes the edge (R32, R165). -/
theorem execSyncEdge_of_edge {s : State} {g : Group} {rising : Bool} (hop : s.condition = .operating)
    (hlevel : (s.syncInput g).level ≠ rising) :
    exec (.syncEdge g rising) s = .next ((synced g rising s).takeEdge g rising) := by
  rw [show exec (.syncEdge g rising) s = execSyncEdge g rising s from rfl, execSyncEdge, onRefclk_of_operating _ hop]
  rw [if_neg (show ¬((clocked s).syncInput g).level = rising from hlevel)]
  rfl

theorem State.cutsFrame_iff {s : State} {g : Group} {rising : Bool} :
    s.cutsFrame g rising = true ↔ ((s.group g).run = .running ∨ (s.group g).run = .halting) ∧
      resyncSelects (s.group g).sync rising ∧ 4 ≤ (s.group g).tick := by
  simp only [State.cutsFrame, Bool.and_eq_true, State.ticking_iff, SyncMode.resyncsOn_iff, decide_eq_true_eq, and_assoc]

/-- The selected edge starts an ARMED group (R33). -/
theorem State.takeEdge_starts {s : State} {g : Group} {rising : Bool} (hrun : (s.group g).run = .armed)
    (hsel : startSelects (s.group g).sync rising) :
    s.takeEdge g rising =
      (s.frameStart g true).raiseAll (.groupState g .syncStart ((s.frameStart g true).group g).fn) :=
  if_pos ⟨hrun, SyncMode.startsOn_iff.mpr hsel⟩

/-- A selected resync edge after tick 3 ends the frame (R34). -/
theorem State.takeEdge_cuts {s : State} {g : Group} {rising : Bool} (hcut : s.cutsFrame g rising = true) :
    s.takeEdge g rising = s.endFrame g := by
  have hrun : (s.group g).run ≠ .armed := by
    rcases (State.cutsFrame_iff.mp hcut).1 with h | h <;> simp [h]
  exact (if_neg fun h => hrun h.1).trans (if_pos hcut)

/-- Another edge is ignored (R32, R34). -/
theorem State.takeEdge_ignored {s : State} {g : Group} {rising : Bool}
    (hstart : ¬((s.group g).run = .armed ∧ startSelects (s.group g).sync rising))
    (hcut : ¬s.cutsFrame g rising = true) : s.takeEdge g rising = s :=
  (if_neg fun h => hstart ⟨h.1, SyncMode.startsOn_iff.mp h.2⟩).trans (if_neg hcut)

/-! ### Frames that end -/

/-- A row that ends the frame of a group whose ticks run ends it in the state at its edge (R24, R34). -/
theorem exec_endsFrame {g : Group} {c : Instr} {s u : State} (hop : s.condition = .operating)
    (hrun : (s.group g).run = .running ∨ (s.group g).run = .halting) (h : EndsFrame g c s u) :
    exec c s = .next (u.endFrame g) := by
  rcases h with ⟨rfl, hlast, rfl⟩ | ⟨htick, rising, rfl, hlevel, hsel, rfl⟩
  · exact execFrameEnd_of_last hop hrun hlast
  · rw [execSyncEdge_of_edge hop hlevel]
    exact congrArg _ (State.takeEdge_cuts (State.cutsFrame_iff.mpr ⟨hrun, hsel, htick⟩))

/-- At the edge that ends a frame only the sync inputs and the measure of REFCLK have moved (R165). -/
theorem EndsFrame.frame {g : Group} {c : Instr} {s u : State} (h : EndsFrame g c s u) :
    u = { s with syncs := u.syncs, refclkGap := u.refclkGap } := by
  rcases h with ⟨-, -, rfl⟩ | ⟨-, rising, -, -, -, rfl⟩ <;> rfl

/-- A frame start keeps the remaining count where no applied set edits the group (R28, R82). -/
theorem State.frameStart_remaining_kept {s : State} {g : Group} (htable : TableLaw s) (hpend : PendingItemLaw s)
    (h : ∀ k d, (k, d) ∈ s.sets.zip (s.frameStart g false).sets → dueAt g ((s.group g).fn + 1) k = true →
      d.wasApplied = true → k.hasEdit (.group g) = false) :
    ((s.frameStart g false).group g).remaining = (s.group g).remaining := by
  rw [State.frameStart_sets] at h
  rw [State.frameStart_remaining htable hpend, if_neg Bool.false_ne_true,
    stagedTiming_eq_none.mpr fun x hx => not_mem_frameEdits h hx rfl]
  rfl

/-- An applied group edit loads its budget (R28, R82). -/
theorem State.frameStart_remaining_loaded {s : State} {g : Group} {k d : ChangeSet} (htable : TableLaw s)
    (hpend : PendingItemLaw s) (hmem : (k, d) ∈ s.sets.zip (s.frameStart g false).sets)
    (hdue : dueAt g ((s.group g).fn + 1) k = true) (happ : d.wasApplied = true) (hedit : k.hasEdit (.group g) = true) :
    ((s.frameStart g false).group g).remaining = ((s.frameStart g false).group g).timing.budget := by
  rw [State.frameStart_sets] at hmem
  obtain ⟨e, he, hitem⟩ := List.any_eq_true.mp hedit
  obtain ⟨x, rfl⟩ : ∃ x, e = .group g x := by
    cases e with
    | leg l r => simp [Edit.item] at hitem
    | group j x => exact ⟨x, by simpa [Edit.item] using hitem⟩
  have hstaged : stagedTiming (s.frameEdits g) g = some x :=
    (stagedTiming_eq_some_iff (State.frameEdits_single htable hpend g)).mpr
      (mem_frameEdits.mpr ⟨k, d, hmem, hdue, happ, he⟩)
  rw [State.frameStart_remaining htable hpend, if_neg Bool.false_ne_true, State.frameStart_timing htable hpend, hstaged]
  rfl

/-- Settles O45: the count decreases first, and then the group stops or the next frame starts. -/
theorem frameEndsStopOrStart : Obligations.FrameEndsStopOrStart := by
  intro g c s u hop htable hlease hpend hi hrun hends budget left
  have hexec := exec_endsFrame hop hrun hends
  obtain ⟨sy, ga, hu⟩ : ∃ sy ga, u = { s with syncs := sy, refclkGap := ga } := ⟨_, _, hends.frame⟩
  have hgroup (k : Group) : u.group k = s.group k := by rw [hu]; rfl
  have hport (q : Port) : u.port q = s.port q := by rw [hu]; rfl
  have hsets : u.sets = s.sets := by rw [hu]
  have hleft : (s.group g).left = left := rfl
  have stops (why : GroupReason) : Told (toAll (.groupState g why (s.group g).fn)) s
      ((u.countFrame g).enterStopped g why) := fun q => by
    rw [State.countFrame_told u g why q, hport, hgroup]
  rw [State.endFrame_eq, hgroup, hleft] at hexec
  refine ⟨fun hspent => ?_, fun hspent hhalt => ?_, fun hspent hrunning => ?_⟩
  · rw [if_pos hspent] at hexec
    refine ⟨_, hexec, State.countFrame_stops u g _, ?_, stops _⟩
    rw [State.countFrame_enterStopped_remaining, hgroup, hleft, hspent.2]
  · rw [if_neg hspent, if_pos hhalt] at hexec
    refine ⟨_, hexec, State.countFrame_stops u g _, ?_, stops _⟩
    rw [State.countFrame_enterStopped_remaining, hgroup, hleft]
  · have hnot : ¬(s.group g).run = .halting := by simp [hrunning]
    rw [if_neg hspent, if_neg hnot] at hexec
    have hlaws : FrameLaws (u.countFrame g) :=
      (FrameLaws.mk htable hlease hpend hi).of_same (by rw [hu]; rfl) hsets (by rw [hu]; rfl) fun k => by
        rw [State.countFrame_group, hgroup, hgroup]; split <;> rfl
    have hfn : ((u.countFrame g).group g).fn = (s.group g).fn := by rw [State.countFrame_group, if_pos rfl, hgroup]
    have hstarts := (hlaws.starts g false).transfer (s := u) (t := (u.countFrame g).frameStart g false) rfl
      (by simp) (fun k hk => by simp [hk]) rfl
    refine ⟨_, hexec, hstarts, fun q => ?_, fun hkept => ?_, fun k d hmem hdue happ hedit => ?_⟩
    · rw [State.frameStart_told hlaws.table hlaws.pendingItems false q, hfn, frameRecords_eq, frameRecords_eq, ← hsets,
        ← hport]
      rfl
    · rw [State.frameStart_remaining_kept hlaws.table hlaws.pendingItems]
      · rw [State.countFrame_group, if_pos rfl, hgroup, hleft]
      · rw [hfn]
        rw [← hsets] at hkept
        exact hkept
    · rw [← hsets] at hmem
      exact State.frameStart_remaining_loaded hlaws.table hlaws.pendingItems hmem (by rw [hfn]; exact hdue) happ hedit

/-- Settles O46: the selected edge starts a frame from rest, and another is ignored. -/
theorem syncEdgesStartOrAreIgnored : Obligations.SyncEdgesStartOrAreIgnored := by
  intro g rising s hop htable hlease hpend hi selected resync
  refine ⟨fun hlevel hrun hsel => ?_, fun hlevel hrun => ?_, fun hlevel => execSyncEdge_of_level hop hlevel⟩
  · have hlaws : FrameLaws (synced g rising s) :=
      (FrameLaws.mk htable hlease hpend hi).of_same rfl rfl rfl fun _ => rfl
    have hstarts := hlaws.starts g true
    have hfn : (((synced g rising s).frameStart g true).group g).fn = (s.group g).fn + 1 := by
      rw [hstarts.group]; rfl
    have hexec := execSyncEdge_of_edge hop hlevel
    rw [State.takeEdge_starts (s := synced g rising s) hrun hsel, hfn] at hexec
    refine ⟨_, hexec, hstarts.transfer rfl rfl (fun _ _ => rfl) rfl, ?_, ?_⟩
    · rw [State.raiseAll_group, State.frameStart_remaining hlaws.table hlaws.pendingItems, if_pos rfl]
    · exact State.frameStart_told_raiseAll hlaws.table hlaws.pendingItems _
  · rw [execSyncEdge_of_edge hop hlevel, State.takeEdge_ignored]
    · rintro ⟨harmed, hsel⟩
      have hsame : ((synced g rising s).group g).run = (s.group g).run := rfl
      rw [hsame] at harmed
      rcases hrun with h | h | ⟨-, h⟩ | ⟨h | h, -⟩
      · exact nomatch h.symm.trans harmed
      · exact nomatch h.symm.trans harmed
      · exact h hsel
      · exact nomatch h.symm.trans harmed
      · exact nomatch h.symm.trans harmed
    · rw [State.cutsFrame_iff]
      rintro ⟨hticks, hsel, htick⟩
      have hsame : (synced g rising s).group g = s.group g := rfl
      rw [hsame] at hticks hsel htick
      rcases hrun with h | h | ⟨h, -⟩ | ⟨-, h | h⟩
      · simp [h] at hticks
      · simp [h] at hticks
      · simp [h] at hticks
      · exact h hsel
      · omega

end Sys2Proof.Machine
end

section
/-! PROOFS. A set that alone is due at a frame start. -/

set_option Elab.async false

namespace Sys2Proof.Machine

/-! ### A lone due set -/

theorem eq_singleton_of_nodup {α : Type} {xs : List α} {a : α} (hn : xs.Nodup) (h : ∀ x, x ∈ xs ↔ x = a) : xs = [a] :=
  List.perm_singleton.mp ((List.perm_ext_iff_of_nodup hn (List.nodup_singleton a)).mpr (by simpa using h))

/-- A set that alone is due at a frame start is validated against the state that the frame start finds (R78, R79). -/
theorem State.frameStart_lone {s : State} {g : Group} {c : ChangeSet} (hids : (s.sets.map ChangeSet.id).Nodup)
    (hc : c ∈ s.sets) (hlone : ∀ k ∈ s.sets, dueAt g ((s.group g).fn + 1) k = true ↔ k = c) (first : Bool) :
    { c with body := .done c.target (outcomeAt g c.target s c) } ∈ (s.frameStart g first).sets := by
  have hdue : dueAt g ((s.group g).fn + 1) c = true := (hlone c hc).mpr rfl
  have hdueSets : (s.advanceFrame g).dueSets g ((s.group g).fn + 1) = [c] := by
    rw [State.dueSets_eq]
    refine eq_singleton_of_nodup (hids.of_map.filter _) fun k => List.mem_filter.trans ?_
    exact ⟨fun ⟨hk, hd⟩ => (hlone k hk).mp hd, fun h => h ▸ ⟨hc, hdue⟩⟩
  have houtcome : outcomeAt g c.target (s.advanceFrame g) c = outcomeAt g c.target s c := by
    have hv : (s.advanceFrame g).validate g c.edits = s.validate g c.edits := by
      apply State.validate_congr <;> simp [State.advanceFrame]
    rw [outcomeAt, outcomeAt, hv]
  obtain ⟨-, -, htarget⟩ := dueAt_iff.mp hdue
  rw [State.frameStart_sets, State.committed, State.commitFrame, hdueSets, List.foldl_cons, List.foldl_nil,
    State.takeDueSet_sets_outcome, ← htarget, houtcome, ← finish_of_due (htarget ▸ hdue)]
  exact List.mem_map.mpr ⟨c, hc, if_pos rfl⟩

/-- A row that starts a frame of a group starts it in a state with the legs, the sets, the timing and the frame number that
the row found (R26, R29, R33, R34). -/
theorem exec_startsFrame {g : Group} {row : Instr} {s : State} (hop : s.condition = .operating)
    (h : StartsFrame g row s) : ∃ (t v : State) (first : Bool), exec row s = .next t ∧
      t.sets = (v.frameStart g first).sets ∧ v.legs = s.legs ∧ v.sets = s.sets ∧
      (v.group g).fn = (s.group g).fn ∧ (v.group g).timing = (s.group g).timing := by
  rcases h with ⟨p, group, rfl, htxn, hg, hh, hrun, hclock, hrise, hfall⟩ | ⟨rising, rfl, hlevel, hrun, hsel⟩ |
    ⟨⟨u, hends⟩, hrun, hbudget⟩
  · have hbody := startBody_starts (s := s.taking p (.start p group)) (groupArg_eq_some.mpr hg) hh hrun hclock hrise hfall
    refine ⟨_, s.taking p (.start p group), true, serve_of_canTake ⟨hop, htxn⟩ (.start p group) _, ?_, rfl, rfl, rfl, rfl⟩
    rw [hbody]
    rfl
  · have hexec := execSyncEdge_of_edge hop hlevel
    rw [State.takeEdge_starts (s := synced g rising s) hrun hsel] at hexec
    exact ⟨_, synced g rising s, true, hexec, rfl, rfl, rfl, rfl, rfl⟩
  · have hexec := exec_endsFrame hop (.inl hrun) hends
    have hu := hends.frame
    have hgroup : u.group g = s.group g := by rw [hu]; rfl
    have hleft : ¬((u.group g).timing.budget ≠ 0 ∧ (u.group g).left = 0) := by
      rw [hgroup]
      rintro ⟨hb, hl⟩
      rw [GroupState.left, if_neg hb] at hl
      omega
    rw [State.endFrame_eq, if_neg hleft, if_neg (by simp [hgroup, hrun])] at hexec
    refine ⟨_, u.countFrame g, false, hexec, rfl, ?_, ?_, ?_, ?_⟩
    · rw [hu]; rfl
    · rw [hu]; rfl
    · rw [State.countFrame_group, if_pos rfl, hgroup]
    · rw [State.countFrame_group, if_pos rfl, hgroup]

/-- Settles O47: whatever row starts the frame, the set is validated against the state that it finds. -/
theorem loneDueSetIsValidated : Obligations.LoneDueSetIsValidated := by
  intro g row c s hop htable hstarts hc hlone
  obtain ⟨t, v, first, hexec, hsets, hlegs, hsame, hfn, htiming⟩ := exec_startsFrame hop hstarts
  have hleg (l : Leg) : v.leg l = s.leg l := by rw [State.leg, hlegs]; rfl
  have hdone := State.frameStart_lone (s := v) (g := g) (c := c) (by rw [hsame]; exact htable.ids)
    (by rw [hsame]; exact hc) (by rw [hsame, hfn]; exact hlone) first
  have hvalid : v.validate g c.edits = s.validate g c.edits :=
    State.validate_congr (fun l => by rw [hleg]) (fun l => by rw [hleg]) (by rw [htiming]) _
  rw [outcomeAt, hvalid, ← hsets] at hdone
  refine ⟨t, hexec, ?_⟩
  cases hv : s.validate g c.edits with
  | none => rw [hv] at hdone; exact hdone
  | some failure => rw [hv] at hdone; exact hdone

end Sys2Proof.Machine
end

section
/-! PROOFS. No group runs without the clock.

What a step can do to the condition, the monitor and the run states: most operations leave all three (`State.clockView`), and
the others bring no group out of rest while the monitor reads LOST (`KeepsRest`), but for the power rows and the monitor's. -/

set_option Elab.async false

namespace Sys2Proof.Machine

/-- A group that is STOPPED or TRIPPED. -/
def RunState.AtRest (r : RunState) : Prop := r = .stopped ∨ r = .tripped

/-- What the law of R39 reads: the condition, whether the monitor reads LOST, and the run states. -/
def State.clockView (s : State) : Condition × Bool × (Group → RunState) :=
  (s.condition, s.monitor.isLost, fun g => (s.group g).run)

/-- The condition and the monitor's reading stay, and while it reads LOST no group leaves its rest. -/
structure KeepsRest (s t : State) : Prop where
  condition : t.condition = s.condition
  monitor : t.monitor.isLost = s.monitor.isLost
  rest : s.monitor.isLost = true → ∀ g, (s.group g).run.AtRest → (t.group g).run.AtRest

theorem KeepsRest.clockLaw {s t : State} (h : KeepsRest s t) (hs : ClockLaw s) : ClockLaw t := by
  obtain ⟨hout, hrest⟩ := hs
  refine ⟨fun hc => ?_, fun hm g => ?_⟩
  · rw [h.monitor]
    exact hout (by rwa [← h.condition])
  · rw [h.monitor] at hm
    exact h.rest hm g (hrest hm g)

theorem State.clockView_eq_iff {s t : State} : t.clockView = s.clockView ↔
    t.condition = s.condition ∧ t.monitor.isLost = s.monitor.isLost ∧ ∀ g, (t.group g).run = (s.group g).run := by
  simp [State.clockView, funext_iff]

/-! ### Operations that leave the view -/

section view
variable (s : State)

theorem clockView_modGroup (g : Group) {f : GroupState → GroupState} (hf : ∀ v, (f v).run = v.run) :
    (s.modGroup g f).clockView = s.clockView := by
  refine State.clockView_eq_iff.mpr ⟨rfl, rfl, fun k => ?_⟩
  rw [State.modGroup_group]
  split
  · exact hf _
  · rfl

theorem clockView_mapGroups {f : Group → GroupState → GroupState} (hf : ∀ g v, (f g v).run = v.run) :
    (s.mapGroups f).clockView = s.clockView :=
  State.clockView_eq_iff.mpr ⟨rfl, rfl, fun k => by rw [State.mapGroups_group, hf]⟩

@[simp] theorem clockView_modPort (p : Port) (f : PortState → PortState) : (s.modPort p f).clockView = s.clockView := rfl
@[simp] theorem clockView_modInput (i : TripInput) (f : InputState → InputState) :
    (s.modInput i f).clockView = s.clockView := rfl
@[simp] theorem clockView_modLeg (l : Leg) (f : LegState → LegState) : (s.modLeg l f).clockView = s.clockView := rfl
@[simp] theorem clockView_raiseAll (e : Event) : (s.raiseAll e).clockView = s.clockView := rfl
@[simp] theorem clockView_enqueue (rows : List Instr) (made : Nat) : (s.enqueue rows made).clockView = s.clockView := rfl
@[simp] theorem clockView_tickStart (g : Group) (first : Bool) (n : Nat) :
    (s.tickStart g first n).clockView = s.clockView := rfl

@[simp] theorem clockView_startTimer (p : Port) : (s.startTimer p).clockView = s.clockView := by
  rw [State.startTimer_frame]; rfl
@[simp] theorem clockView_stopTimerIfIdle (p : Port) : (s.stopTimerIfIdle p).clockView = s.clockView := by
  rw [State.stopTimerIfIdle_frame]; rfl
@[simp] theorem clockView_cancelSets (pick : ChangeSet → Bool) (why : CancelReason) :
    (s.cancelSets pick why).clockView = s.clockView := by
  rw [State.cancelSets_frame]; rfl
@[simp] theorem clockView_stopOutputs (g : Group) : (s.stopOutputs g).clockView = s.clockView := by
  rw [State.stopOutputs_frame]; rfl
@[simp] theorem clockView_setHolders (pick : Item → Bool) (h : Option Port) :
    (s.setHolders pick h).clockView = s.clockView :=
  clockView_mapGroups _ fun _ _ => by split <;> rfl

@[simp] theorem clockView_expire (p : Port) : (s.expire p).clockView = s.clockView := by
  rw [State.expire_frame]
  refine State.clockView_eq_iff.mpr ⟨rfl, rfl, fun g => ?_⟩
  show ((s.expire p).group g).run = _
  rw [State.expire_group, lostGroup]
  split <;> rfl

@[simp] theorem clockView_resetPort (p : Port) (b : Bool) : (s.resetPort p b).clockView = s.clockView := by
  rw [State.resetPort_frame]
  refine State.clockView_eq_iff.mpr ⟨rfl, rfl, fun g => ?_⟩
  show ((s.resetPort p b).group g).run = _
  rw [State.resetPort_group, lostGroup]
  split <;> rfl

@[simp] theorem clockView_takeDueSet (g : Group) (f : Frame) (c : ChangeSet) :
    (State.takeDueSet g f s c).clockView = s.clockView := by
  have hwrite : (s.writeEdits g c.edits).clockView = s.clockView :=
    clockView_modGroup _ g fun v => by split <;> rfl
  unfold State.takeDueSet
  split
  · exact hwrite
  · rfl

@[simp] theorem clockView_commitFrame (g : Group) (f : Frame) : (s.commitFrame g f).clockView = s.clockView := by
  unfold State.commitFrame
  generalize s.dueSets g f = cs
  induction cs generalizing s with
  | nil => rfl
  | cons c cs ih => rw [List.foldl_cons, ih, clockView_takeDueSet]

@[simp] theorem clockView_raiseSeized (before : State) (p : Port) (mask : Byte) :
    (s.raiseSeized before p mask).clockView = s.clockView := by
  unfold State.raiseSeized
  generalize allItems = is
  induction is generalizing s with
  | nil => rfl
  | cons i is ih =>
    rw [List.foldl_cons, ih]
    split
    · split <;> rfl
    · rfl

theorem clockView_stopTimers (ps : List Port) : (ps.foldl State.stopTimerIfIdle s).clockView = s.clockView := by
  induction ps generalizing s with
  | nil => rfl
  | cons p ps ih => rw [List.foldl_cons, ih, clockView_stopTimerIfIdle]

@[simp] theorem clockView_completeRead (p : Port) : (s.completeRead p).clockView = s.clockView := by
  unfold State.completeRead State.freeReported
  split
  · dsimp only
    split
    · split <;> rfl
    · rfl
  · rfl
  · rfl

end view

/-! ### The owners that leave the view -/

section bodies
variable (p : Port) (s : State)

theorem claimBody_view (mask : Byte) : (claimBody p mask s).state.clockView = s.clockView := by
  unfold claimBody
  split
  · rfl
  · split <;> simp [accept, refuse]

theorem releaseBody_view (mask : Byte) : (releaseBody p mask s).state.clockView = s.clockView := by
  unfold releaseBody
  split
  · rfl
  · split
    · rfl
    · split <;> simp [accept, refuse]

theorem seizeBody_view (mask : Byte) : (seizeBody p mask s).state.clockView = s.clockView := by
  unfold seizeBody
  split
  · rfl
  · split
    · rfl
    · dsimp only [accept]
      rw [clockView_stopTimers, clockView_startTimer, clockView_raiseSeized, clockView_cancelSets]
      exact clockView_setHolders s _ _

theorem setFallbackBody_view (item value : Byte) : (setFallbackBody p item value s).state.clockView = s.clockView := by
  unfold setFallbackBody State.setItemFallback
  split
  · split
    · split
      · rfl
      · exact clockView_modGroup s _ fun _ => rfl
    · rfl
  · rfl

theorem setLivenessBody_view (named timeout : Byte) :
    (setLivenessBody p named timeout s).state.clockView = s.clockView := by
  unfold setLivenessBody
  split
  · rfl
  · split <;> rfl

theorem portResetBody_view (named : Byte) : (portResetBody p named s).state.clockView = s.clockView := by
  unfold portResetBody
  split
  · rfl
  · split
    · rfl
    · split
      · exact clockView_resetPort s _ _
      · rfl

theorem openSetBody_view (group : Byte) : (openSetBody p group s).state.clockView = s.clockView := by
  unfold openSetBody
  split
  · rfl
  · split
    · rfl
    · split <;> rfl

theorem stageEdit_view (c : ChangeSet) (e : Edit) : (stageEdit s c e).state.clockView = s.clockView := by
  unfold stageEdit
  split <;> rfl

theorem stageLegBody_view (leg : Byte) (record : RawPattern) :
    (stageLegBody p leg record s).state.clockView = s.clockView := by
  unfold stageLegBody
  split
  · rfl
  split
  · rfl
  split
  · rfl
  split
  · rfl
  split
  · rfl
  · exact stageEdit_view s _ _

theorem stageGroupBody_view (group : Byte) (record : RawTiming) :
    (stageGroupBody p group record s).state.clockView = s.clockView := by
  unfold stageGroupBody
  split
  · rfl
  split
  · rfl
  split
  · rfl
  split
  · rfl
  split
  · rfl
  · exact stageEdit_view s _ _

theorem unstageBody_view (item : Byte) : (unstageBody p item s).state.clockView = s.clockView := by
  unfold unstageBody
  split
  · rfl
  · split
    · rfl
    · split <;> rfl

theorem abandonBody_view : (abandonBody p s).state.clockView = s.clockView := by
  unfold abandonBody
  split <;> rfl

theorem sealBody_view (form : Byte) (value : Frame) : (sealBody p form value s).state.clockView = s.clockView := by
  unfold sealBody
  split
  · rfl
  split
  · rfl
  dsimp only
  split
  · rfl
  split
  · rfl
  split
  · rfl
  split
  · rfl
  split
  · rfl
  split <;> rfl

theorem withdrawBody_view (setId : Byte) : (withdrawBody p setId s).state.clockView = s.clockView := by
  unfold withdrawBody
  split
  · rfl
  · split <;> rfl

theorem ackSetBody_view (setId : Byte) : (ackSetBody p setId s).state.clockView = s.clockView := by
  unfold ackSetBody
  split
  · rfl
  · split <;> rfl

theorem setStatusBody_view (setId : Byte) : (setStatusBody p setId s).state.clockView = s.clockView := by
  unfold setStatusBody
  split <;> rfl

theorem configureGroupBody_view (group sync stopOutput : Byte) :
    (configureGroupBody p group sync stopOutput s).state.clockView = s.clockView := by
  unfold configureGroupBody
  split
  · split
    · rfl
    · split
      · rfl
      · refine State.clockView_eq_iff.mpr ?_
        dsimp only [accept]
        refine ⟨by rw [State.configure_frame], by rw [State.configure_frame], fun g => ?_⟩
        rw [State.configure_group]
        split <;> rfl
  · rfl

theorem assignLegBody_view (leg group : Byte) : (assignLegBody p leg group s).state.clockView = s.clockView := by
  unfold assignLegBody
  split
  · rfl
  · split
    · split
      · rfl
      · split <;> rfl
    · rfl

theorem setSafeBody_view (leg levelA levelB delay : Byte) :
    (setSafeBody p leg levelA levelB delay s).state.clockView = s.clockView := by
  unfold setSafeBody
  split
  · rfl
  · split
    · split
      · rfl
      · split <;> rfl
    · rfl

end bodies

/-! ### What moves a group -/

namespace KeepsRest

variable {s t u : State}

theorem of_view (h : t.clockView = s.clockView) : KeepsRest s t := by
  obtain ⟨hc, hm, hrun⟩ := State.clockView_eq_iff.mp h
  exact ⟨hc, hm, fun _ g hg => by rwa [hrun]⟩

theorem refl (s : State) : KeepsRest s s := of_view rfl

theorem trans (h : KeepsRest s t) (k : KeepsRest t u) : KeepsRest s u where
  condition := k.condition.trans h.condition
  monitor := k.monitor.trans h.monitor
  rest hm g hg := k.rest (h.monitor.trans hm) g (h.rest hm g hg)

theorem view (h : KeepsRest s t) (k : u.clockView = t.clockView) : KeepsRest s u := h.trans (of_view k)

theorem ite {P : Prop} [Decidable P] (ht : P → KeepsRest s t) (hu : ¬P → KeepsRest s u) :
    KeepsRest s (if P then t else u) := by
  split
  · exact ht ‹_›
  · exact hu ‹_›

/-- One group moved: to rest, or out of a state that is no rest, or with the clock present. -/
theorem modGroup (s : State) (g : Group) {f : GroupState → GroupState}
    (hf : s.monitor.isLost = true → (s.group g).run.AtRest → (f (s.group g)).run.AtRest) :
    KeepsRest s (s.modGroup g f) := by
  refine ⟨rfl, rfl, fun hm k hk => ?_⟩
  rw [State.modGroup_group]
  split
  · next h => subst h; exact hf hm hk
  · exact hk

theorem enterStopped (s : State) (g : Group) (why : GroupReason) : KeepsRest s (s.enterStopped g why) :=
  (modGroup s g fun _ _ => .inl rfl).view (by rw [State.enterStopped, clockView_raiseAll, clockView_stopOutputs])

/-- A frame starts in no group that rests without the clock. -/
theorem frameStart (s : State) (g : Group) (first : Bool)
    (h : ¬(s.monitor.isLost = true ∧ (s.group g).run.AtRest)) : KeepsRest s (s.frameStart g first) := by
  have hview : (s.committed g).clockView = s.clockView :=
    (clockView_commitFrame _ _ _).trans (clockView_modGroup s g fun _ => rfl)
  obtain ⟨-, hm, hrun⟩ := State.clockView_eq_iff.mp hview
  rw [State.frameStart_eq]
  refine ((of_view hview).trans (modGroup _ g fun hlost hrest => ?_)).view (clockView_tickStart _ _ _ _)
  rw [hm] at hlost
  rw [hrun] at hrest
  exact absurd ⟨hlost, hrest⟩ h

theorem endFrame (s : State) (g : Group) (h : s.ticking g = true) : KeepsRest s (s.endFrame g) := by
  have hcount : KeepsRest s (s.countFrame g) := of_view (clockView_modGroup s g fun _ => rfl)
  rw [State.endFrame_eq]
  refine ite (fun _ => hcount.trans (enterStopped _ _ _)) fun _ => ite (fun _ => hcount.trans (enterStopped _ _ _))
    fun _ => hcount.trans (frameStart _ _ _ ?_)
  rw [State.countFrame_group, if_pos rfl]
  rintro ⟨-, hrest⟩
  rcases State.ticking_iff.mp h with hr | hr <;> simp [RunState.AtRest, hr] at hrest

theorem tripGroup (s : State) (g : Group) (c : Cause) : KeepsRest s (s.tripGroup g c) := by
  refine ⟨by rw [State.tripGroup_frame], by rw [State.tripGroup_frame], fun _ k hk => ?_⟩
  rw [State.tripGroup_group]
  split
  · split
    · split <;> exact hk
    · exact .inr rfl
  · exact hk

theorem tripGroups (s : State) (pick : Group → Bool) (c : Cause) : KeepsRest s (s.tripGroups pick c) := by
  have h0 : KeepsRest s (if pick .g0 then s.tripGroup .g0 c else s) := ite (fun _ => tripGroup s _ c) fun _ => refl s
  exact ite (fun _ => h0.trans (tripGroup _ _ c)) fun _ => h0

theorem assertInput (s : State) (i : TripInput) : KeepsRest s (s.assertInput i) :=
  (of_view (clockView_modInput s i _)).trans (tripGroups _ _ _)

theorem resetDevice (s : State) (p : Port) : KeepsRest s (s.resetDevice p) :=
  ⟨rfl, rfl, fun _ g _ => .inl (by cases g <;> rfl)⟩

theorem releaseSelect (s : State) (p : Port) (whole : Bool) : KeepsRest s (s.releaseSelect p whole) := by
  unfold State.releaseSelect State.endTxn
  refine ite (fun _ => ?_) fun _ => of_view rfl
  split
  · exact of_view rfl
  · exact of_view rfl
  · exact of_view rfl
  · exact of_view rfl
  · exact of_view (clockView_resetPort _ _ _)
  · have hreset : KeepsRest s ((s.modPort p PortState.release).resetDevice p) :=
      trans (of_view (clockView_modPort s p _)) (resetDevice _ p)
    exact hreset.view (clockView_modPort _ p _)
  · exact of_view rfl
  · refine of_view ?_
    rw [clockView_modPort]
    split
    · exact clockView_completeRead _ _
    · rfl

/-- START moves a STOPPED group only with the clock present (R29). -/
theorem startBody (p : Port) (group : Byte) (s : State) : KeepsRest s (startBody p group s).state := by
  unfold Machine.startBody
  split
  · exact refl s
  next g _ =>
  split
  · exact refl s
  split
  · exact refl s
  split
  · exact refl s
  next hclock =>
  have hmoves (hrun : (s.group g).run = .stopped) : ¬s.monitor.isLost = true := fun hl => hclock ⟨hrun, hl⟩
  dsimp only [accept]
  unfold State.startGroup
  split
  · next hrun =>
    refine ite (fun _ => (modGroup s g fun hl => absurd hl (hmoves hrun)).view rfl) fun _ => ?_
    exact (frameStart s g true fun h => hmoves hrun h.1).view rfl
  · next hrun => exact (modGroup s g fun _ hrest => by simp [RunState.AtRest, hrun] at hrest).view rfl
  · exact refl s
  · exact refl s
  · exact refl s

theorem stopBody (p : Port) (group form : Byte) (s : State) : KeepsRest s (stopBody p group form s).state := by
  unfold Machine.stopBody
  split
  · split
    · exact refl s
    split
    · exact refl s
    next g atEnd _ _ _ _ =>
    dsimp only [accept]
    unfold State.stopGroup
    split
    · exact refl s
    · exact refl s
    · exact enterStopped s g _
    · next hrun =>
      refine ite (fun _ => ?_) fun _ => enterStopped s g _
      exact (modGroup s g fun _ hrest => by simp [RunState.AtRest, hrun] at hrest).view rfl
    · exact ite (fun _ => refl s) fun _ => enterStopped s g _
  · exact refl s

theorem tripBody (p : Port) (mask : Byte) (s : State) : KeepsRest s (tripBody p mask s).state := by
  unfold Machine.tripBody
  split
  · exact refl s
  · split
    · exact refl s
    · split
      · exact refl s
      · exact tripGroups s _ _

theorem clearTripBody (p : Port) (group : Byte) (s : State) : KeepsRest s (clearTripBody p group s).state := by
  unfold Machine.clearTripBody
  split
  · exact refl s
  · split
    · exact refl s
    · split
      · exact refl s
      · split
        · exact refl s
        · exact (modGroup s _ fun _ _ => .inl rfl).view rfl

theorem mapTripBody (p : Port) (input mask time : Byte) (s : State) :
    KeepsRest s (mapTripBody p input mask time s).state := by
  unfold Machine.mapTripBody State.mapInput
  split
  · exact refl s
  · split
    · next i m _ _ =>
      have h (f : InputState → InputState) : KeepsRest s (s.modInput i f) := of_view rfl
      dsimp only [accept]
      split
      · exact h _
      · exact ite (fun _ => (h _).trans (assertInput _ i)) fun _ => h _
      · exact (h _).trans (tripGroups _ _ _)
    · exact refl s

/-! ### Rows -/

/-- A command taken on a port: what its owner does is what the step does. -/
theorem serve {p : Port} {c : Instr} {body : State → Reply} (h : serve p c body s = .next t)
    (hb : ∀ v, KeepsRest v (body v).state) : KeepsRest s t := by
  by_cases hs : CanTake s p
  · rw [serve_of_canTake hs] at h
    cases h
    exact ((of_view (clockView_modPort s p _)).trans (hb _)).view rfl
  · rw [serve_of_not_canTake hs] at h
    cases h
    exact refl s

theorem serve_view {p : Port} {c : Instr} {body : State → Reply} (h : Machine.serve p c body s = .next t)
    (hb : ∀ v, (body v).state.clockView = v.clockView) : KeepsRest s t := serve h fun v => of_view (hb v)

theorem serveSetWork {p : Port} {c : Instr} {body : State → Reply} (h : serveSetWork p c body s = .next t)
    (hb : ∀ v, (body v).state.clockView = v.clockView) : KeepsRest s t :=
  serve_view h fun v => by
    rw [Reply.leaveDue_frame]
    exact hb v

/-- An event that the part takes in OPERATING alone. -/
theorem inOperation {f : State → State} (h : inOperation f s = .next t) (hf : KeepsRest s (f s)) : KeepsRest s t := by
  by_cases hs : s.condition = .operating
  · rw [inOperation_of_operating f hs] at h
    cases h
    exact hf
  · rw [inOperation_of_not_operating f hs] at h
    cases h
    exact refl s

theorem onRefclk {f : State → State} (h : onRefclk f s = .next t) (hf : KeepsRest (clocked s) (f (clocked s))) :
    KeepsRest s t :=
  inOperation h (trans (t := clocked s) (of_view rfl) hf)

theorem badRequest {p : Port} {bytes : List Byte} (h : execBadRequest p bytes s = .next t) : KeepsRest s t := by
  unfold execBadRequest at h
  split at h
  · split at h <;> cases h <;> exact of_view rfl
  · cases h; exact refl s

theorem malformed {p : Port} {cmd len : Byte} (h : execMalformed p cmd len s = .next t) : KeepsRest s t := by
  unfold execMalformed at h
  split at h <;> cases h <;> exact of_view rfl

theorem selectAsserted {p : Port} (h : execSelectAsserted p s = .next t) : KeepsRest s t := by
  unfold execSelectAsserted at h
  dsimp only at h
  split at h <;> cases h <;> exact of_view rfl

/-- A fallback HALT notice moves a RUNNING group alone (R37). -/
theorem fallbackHalt {g : Group} (h : execFallbackHalt g s = .next t) : KeepsRest s t := by
  have hnotice : (s.modGroup g fun v => { v with haltNotices := v.haltNotices - 1 }).clockView = s.clockView :=
    clockView_modGroup s g fun _ => rfl
  refine inOperation h (ite (fun _ => refl s) fun _ => ite (fun hrun => ?_) fun _ => of_view hnotice)
  refine ((of_view hnotice).trans (modGroup _ g fun _ hrest => ?_)).view (clockView_raiseAll _ _)
  simp [RunState.AtRest, hrun] at hrest

theorem tick {g : Group} (h : execTick g s = .next t) : KeepsRest s t :=
  onRefclk h (ite (fun _ => of_view ((clockView_tickStart _ _ _ _).trans (clockView_modGroup _ g fun _ => rfl)))
    fun _ => refl _)

theorem frameEnd {g : Group} (h : execFrameEnd g s = .next t) : KeepsRest s t :=
  onRefclk h (ite (fun hc => endFrame _ g (Bool.and_eq_true _ _ ▸ hc).1) fun _ => refl _)

/-- A sync edge starts a frame in an ARMED group, or cuts one short in a group whose ticks run (R32, R34). -/
theorem takeEdge (s : State) (g : Group) (rising : Bool) : KeepsRest s (s.takeEdge g rising) := by
  by_cases hstart : (s.group g).run = .armed ∧ startSelects (s.group g).sync rising
  · obtain ⟨hrun, hsel⟩ := hstart
    rw [State.takeEdge_starts hrun hsel]
    refine (frameStart s g true ?_).view (clockView_raiseAll _ _)
    rintro ⟨-, hrest⟩
    simp [RunState.AtRest, hrun] at hrest
  · by_cases hcut : s.cutsFrame g rising = true
    · rw [State.takeEdge_cuts hcut]
      exact endFrame s g (State.ticking_iff.mpr (State.cutsFrame_iff.mp hcut).1)
    · rw [State.takeEdge_ignored hstart hcut]
      exact refl s

theorem syncEdge {g : Group} {rising : Bool} (h : execSyncEdge g rising s = .next t) : KeepsRest s t :=
  onRefclk h (ite (fun _ => refl _) fun _ =>
    trans (t := (clocked s).modSync g (SyncState.recognise rising)) (of_view rfl) (takeEdge _ g rising))

theorem tripInputLow {i : TripInput} (h : execTripInputLow i s = .next t) : KeepsRest s t := by
  refine (of_view (clockView_modInput s i _)).trans (inOperation h (ite (fun _ => ?_) fun _ => refl _))
  unfold State.sampleLow
  dsimp only
  split
  · exact ite (fun _ => assertInput _ i) fun _ => of_view (clockView_modInput _ i _)
  · exact refl _
  · exact refl _

theorem tripInputQualified {i : TripInput} (h : execTripInputQualified i s = .next t) : KeepsRest s t := by
  refine inOperation h ?_
  split
  · exact ite (fun _ => assertInput s i) fun _ => refl s
  · exact refl s
  · exact refl s

theorem tripInputHigh {i : TripInput} (h : execTripInputHigh i s = .next t) : KeepsRest s t :=
  (of_view (clockView_modInput s i _)).trans
    (inOperation h (ite (fun _ => of_view (clockView_modInput _ i _)) fun _ => refl _))

theorem next {u : State} (h : (.next u : Host.Outcome State Fault Refusal) = .next t) (hu : KeepsRest s u) :
    KeepsRest s t := by
  cases h
  exact hu

theorem readEventCompleted {p : Port} (h : execReadEventCompleted p s = .next t) : KeepsRest s t :=
  inOperation h (of_view (clockView_completeRead s p))

theorem livenessExpiry {p : Port} (h : execLivenessExpiry p s = .next t) : KeepsRest s t :=
  inOperation h (ite (fun _ => of_view (clockView_expire s p)) fun _ => refl s)

theorem safeWaitExpiry {l : Leg} (h : execSafeWaitExpiry l s = .next t) : KeepsRest s t :=
  inOperation h (ite (fun _ => of_view (clockView_modLeg s l _)) fun _ => refl s)

theorem restoreCountRestart (h : execRestoreCountRestart s = .next t) : KeepsRest s t :=
  inOperation h (ite (fun hl => of_view (State.clockView_eq_iff.mpr ⟨rfl, hl.symm, fun _ => rfl⟩)) fun _ => refl s)

end KeepsRest

/-! ### The rows of the monitor and of power -/

/-- A loss trips every group that does not stand STOPPED (R123). -/
theorem State.tripGroups_rest (s : State) (c : Cause) (g : Group) :
    ((s.tripGroups s.lossTrips c).group g).run.AtRest := by
  have htrip (u : State) (k : Group) : ((u.tripGroup k c).group k).run = .tripped := by
    rw [State.tripGroup_group, if_pos rfl]
    split
    · split <;> assumption
    · rfl
  have hstay (u : State) {k h : Group} (hne : h ≠ k) : (u.tripGroup k c).group h = u.group h := by
    rw [State.tripGroup_group, if_neg hne]
  have hnot {k : Group} (hk : ¬s.lossTrips k = true) : (s.group k).run = .stopped := by
    simpa [State.lossTrips] using hk
  unfold State.tripGroups
  cases g with
  | g0 =>
    by_cases h0 : s.lossTrips .g0 = true
    · rw [if_pos h0]
      refine .inr ?_
      split
      · rw [hstay _ (by decide), htrip]
      · exact htrip s .g0
    · rw [if_neg h0]
      refine .inl ?_
      split
      · rw [hstay _ (by decide), hnot h0]
      · exact hnot h0
  | g1 =>
    dsimp only
    split
    · exact .inr (htrip _ .g1)
    next h1 =>
    refine .inl ?_
    split
    · rw [hstay _ (by decide), hnot h1]
    · exact hnot h1

theorem ClockLaw.clockLost {s t : State} (hs : ClockLaw s) (h : execClockLost s = .next t) : ClockLaw t := by
  by_cases hop : s.condition = .operating
  · by_cases hl : s.monitor.isLost = true
    · refine (KeepsRest.inOperation h ?_).clockLaw hs
      rw [if_pos hl]
      exact .refl s
    · cases h.symm.trans (execClockLost_of_present hop (Monitor.isLost_eq_false.mp (by simpa using hl)))
      refine ⟨fun hout => ?_, fun _ g => State.tripGroups_rest _ _ g⟩
      rw [State.tripGroups_frame] at hout
      exact absurd hop hout
  · rw [execClockLost, inOperation_of_not_operating _ hop] at h
    cases h
    exact hs

theorem ClockLaw.clockRestored {s t : State} (hs : ClockLaw s) (h : execClockRestored s = .next t) : ClockLaw t := by
  by_cases hop : s.condition = .operating
  · by_cases hl : s.monitor.isLost = true
    · cases h.symm.trans (execClockRestored_of_lost hop hl)
      exact ⟨fun hout => absurd hop hout, nofun⟩
    · refine (KeepsRest.inOperation h ?_).clockLaw hs
      rw [if_neg hl]
      exact .refl s
  · rw [execClockRestored, inOperation_of_not_operating _ hop] at h
    cases h
    exact hs

theorem ClockLaw.enterReset (s : State) : ClockLaw s.enterReset :=
  ⟨fun _ => rfl, fun _ g => .inl (by cases g <;> rfl)⟩

theorem ClockLaw.enterStartUp {s : State} (hs : ClockLaw s) (straps : BitVec 2) : ClockLaw (s.enterStartUp straps) := by
  obtain ⟨hout, hrest⟩ := hs
  unfold State.enterStartUp
  split
  · next hreset => exact ⟨fun _ => hout (by rw [hreset]; exact nofun), hrest⟩
  · exact ⟨hout, hrest⟩

/-- The monitor read LOST before the part came to OPERATING, so the groups rest (R124, R162). -/
theorem ClockLaw.startUpComplete {s t : State} (hs : ClockLaw s) (h : execStartUpComplete s = .next t) : ClockLaw t := by
  obtain ⟨hout, hrest⟩ := hs
  unfold execStartUpComplete at h
  split at h
  · next hstart =>
    cases h
    exact ⟨fun _ => rfl, fun _ => hrest (hout (by rw [hstart]; exact nofun))⟩
  · cases h
    exact ⟨hout, hrest⟩

/-! ### A step -/

/-- Every row of the table keeps the law. -/
theorem ClockLaw.exec {c : Instr} {s t : State} (hs : ClockLaw s) (h : exec c s = .next t) : ClockLaw t := by
  have keeps (hk : KeepsRest s t) : ClockLaw t := hk.clockLaw hs
  cases c with
  | identify p => exact keeps (.serve_view h fun _ => rfl)
  | portStatus p named =>
    refine keeps (.serve_view h fun v => ?_)
    unfold portStatusBody
    split
    · rfl
    · split <;> rfl
  | readEvent p => exact keeps (.serve_view h fun v => by rw [readEventBody_state])
  | setNotify p mask => exact keeps (.serve_view h fun _ => rfl)
  | portReset p named => exact keeps (.serve_view h fun v => portResetBody_view p v named)
  | deviceReset p => exact keeps (.serve_view h fun v => by unfold deviceResetBody; split <;> rfl)
  | claim p mask => exact keeps (.serve_view h fun v => claimBody_view p v mask)
  | release p mask => exact keeps (.serve_view h fun v => releaseBody_view p v mask)
  | seize p mask => exact keeps (.serve_view h fun v => seizeBody_view p v mask)
  | setFallback p item value => exact keeps (.serve_view h fun v => setFallbackBody_view p v item value)
  | setLiveness p named timeout => exact keeps (.serve_view h fun v => setLivenessBody_view p v named timeout)
  | readLeases p => exact keeps (.serve_view h fun _ => rfl)
  | openSet p group => exact keeps (.serve_view h fun v => openSetBody_view p v group)
  | stageLeg p leg record => exact keeps (.serveSetWork h fun v => stageLegBody_view p v leg record)
  | stageGroup p group record => exact keeps (.serveSetWork h fun v => stageGroupBody_view p v group record)
  | unstage p item => exact keeps (.serve_view h fun v => unstageBody_view p v item)
  | abandon p => exact keeps (.serve_view h fun v => abandonBody_view p v)
  | withdraw p setId => exact keeps (.serve_view h fun v => withdrawBody_view p v setId)
  | ackSet p setId => exact keeps (.serve_view h fun v => ackSetBody_view p v setId)
  | setStatus p setId => exact keeps (.serve_view h fun v => setStatusBody_view p v setId)
  | start p group => exact keeps (.serve h fun v => .startBody p group v)
  | stop p group form => exact keeps (.serve h fun v => .stopBody p group form v)
  | configureGroup p group sync out =>
    exact keeps (.serve_view h fun v => configureGroupBody_view p v group sync out)
  | assignLeg p leg group => exact keeps (.serve_view h fun v => assignLegBody_view p v leg group)
  | trip p mask => exact keeps (.serve h fun v => .tripBody p mask v)
  | clearTrip p group => exact keeps (.serve h fun v => .clearTripBody p group v)
  | mapTrip p input mask time => exact keeps (.serve h fun v => .mapTripBody p input mask time v)
  | setSafe p leg a b delay => exact keeps (.serve_view h fun v => setSafeBody_view p v leg a b delay)
  | readActive p item => exact keeps (.serve_view h fun v => by unfold readActiveBody; split <;> rfl)
  | readPending p item =>
    refine keeps (.serve_view h fun v => ?_)
    unfold readPendingBody
    split
    · rfl
    · split <;> rfl
  | readOutputs p => exact keeps (.serve_view h fun _ => rfl)
  | badRequest p bytes => exact keeps (.badRequest h)
  | malformed p cmd len => exact keeps (.malformed h)
  | selectAsserted p => exact keeps (.selectAsserted h)
  | selectReleased p whole => exact keeps (.next h (.releaseSelect s p whole))
  | readEventCompleted p => exact keeps (.readEventCompleted h)
  | portResetEffect p whole => exact keeps (.next h (.releaseSelect s p whole))
  | deviceResetEffect p whole => exact keeps (.next h (.releaseSelect s p whole))
  | livenessExpiry p => exact keeps (.livenessExpiry h)
  | fallbackHalt g => exact keeps (.fallbackHalt h)
  | tick g => exact keeps (.tick h)
  | frameEnd g => exact keeps (.frameEnd h)
  | syncEdge g rising => exact keeps (.syncEdge h)
  | tripInputLow i => exact keeps (.tripInputLow h)
  | tripInputQualified i => exact keeps (.tripInputQualified h)
  | tripInputHigh i => exact keeps (.tripInputHigh h)
  | safeWaitExpiry l => exact keeps (.safeWaitExpiry h)
  | clockLost => exact hs.clockLost h
  | restoreCountRestart => exact keeps (.restoreCountRestart h)
  | clockRestored => exact hs.clockRestored h
  | powerOn straps => cases h; exact hs.enterStartUp straps
  | powerFail => cases h; exact .enterReset s
  | resetnAsserted => cases h; exact .enterReset s
  | resetnReleased straps => cases h; exact hs.enterStartUp straps
  | startUpComplete => exact hs.startUpComplete h
  | _ p form value => exact keeps (.serveSetWork h fun v => sealBody_view p v form value)

theorem Monitor.count_isLost (m : Monitor) : m.count.isLost = m.isLost := by cases m <;> rfl

theorem KeepsRest.happen (s : State) (h : Happening) : KeepsRest s (s.happen h) := by
  cases h with
  | oscillator =>
    rw [State.happen_oscillator, State.countTenth_frame]
    exact .of_view (State.clockView_eq_iff.mpr ⟨rfl, s.monitor.count_isLost, fun _ => rfl⟩)
  | refclk =>
    have hcount : s.countRefclk.clockView = s.clockView :=
      State.clockView_eq_iff.mpr ⟨rfl, rfl, fun g => by rw [State.countRefclk_group]⟩
    exact (KeepsRest.of_view hcount).view (clockView_enqueue _ _ _)
  | syncPin g high => exact .of_view rfl
  | tripPin i low => exact .of_view rfl
  | sck p high data => exact .of_view rfl
  | notice g => exact .of_view rfl

theorem ClockLaw.idle {s : State} (hs : ClockLaw s) : ClockLaw s.idle := by
  by_cases hop : s.condition = .operating
  · rw [State.idle_of_operating s hop]
    exact (KeepsRest.trans (t := { s with choices := s.choices + 1 }) (.of_view rfl) (.happen _ _)).clockLaw hs
  · rwa [State.idle_of_not_operating s hop]

/-- Settles O9: no row but those of power and of the monitor brings a group out of rest while the monitor reads LOST
(`KeepsRest`), and a loss brings every group to rest. -/
theorem noGroupRunsWithoutClock : Obligations.NoGroupRunsWithoutClock := by
  intro s t hs h
  unfold step at h
  split at h
  · cases h
    exact hs.idle
  · next c rest _ => exact ClockLaw.exec (s := { s with pending := rest }) hs h

end Sys2Proof.Machine
end

section
/-! PROOFS. What happens while no command waits: the rows that fall due with a tenth of a microsecond and with an edge of
REFCLK, and the state that is left. -/

set_option Elab.async false

namespace Sys2Proof.Machine

/-- The state in which a happening is taken: the free value that names it is used up. -/
def State.chosen (s : State) : State := { s with choices := s.choices + 1 }

/-! ### A tenth of a microsecond -/

/-- What the samples of the trip inputs at the end of a microsecond give their filters (R112, R166). -/
def State.dueSamples (s : State) : List Instr := allInputs.filterMap s.dueSample

theorem State.dueEvents_eq (s : State) :
    s.dueEvents = (if s.microEnds then s.dueExpiries ++ s.dueSamples ++ s.dueWaits else []) ++ s.dueClock := rfl

theorem State.chosen_microEnds (s : State) : s.chosen.microEnds = microsecondEnds s := rfl

theorem State.liveStepEnds_iff {s : State} : s.liveStepEnds = true ↔ 999 ≤ s.hkoMicros := by
  simp [State.liveStepEnds, Config.liveStep]

section due
variable {s : State} {c : Instr}

theorem State.mem_dueExpiries : c ∈ s.dueExpiries ↔
    ∃ p n, c = .livenessExpiry p ∧ 999 ≤ s.hkoMicros ∧ (s.port p).timer = some n ∧ n ≤ 1 := by
  unfold State.dueExpiries
  split
  · next hstep =>
    have hmicros : 999 ≤ s.hkoMicros := State.liveStepEnds_iff.mp hstep
    simp only [List.mem_filterMap, mem_allPorts, true_and, hmicros]
    refine exists_congr fun p => ?_
    cases (s.port p).timer with
    | none => simp
    | some n => simp [eq_comm, and_comm]
  · next hstep =>
    have hmicros : ¬999 ≤ s.hkoMicros := mt State.liveStepEnds_iff.mpr hstep
    simp [hmicros]

theorem State.mem_dueSamples : c ∈ s.dueSamples ↔
    (∃ i, c = .tripInputLow i ∧ (s.input i).filter = .quiet ∧ (s.input i).pinLow = true) ∨
    (∃ i low, c = .tripInputQualified i ∧ (s.input i).filter = .qualifying low ∧ (s.input i).pinLow = true ∧
      (s.input i).filterTime ≤ low + 1) ∨
    (∃ i, c = .tripInputHigh i ∧ (s.input i).filter ≠ .quiet ∧ (s.input i).pinLow = false) := by
  have hone (i : TripInput) : s.dueSample i = some c ↔
      (c = .tripInputLow i ∧ (s.input i).filter = .quiet ∧ (s.input i).pinLow = true) ∨
      (∃ low, c = .tripInputQualified i ∧ (s.input i).filter = .qualifying low ∧ (s.input i).pinLow = true ∧
        (s.input i).filterTime ≤ low + 1) ∨
      (c = .tripInputHigh i ∧ (s.input i).filter ≠ .quiet ∧ (s.input i).pinLow = false) := by
    unfold State.dueSample
    cases hf : (s.input i).filter <;> cases hp : (s.input i).pinLow <;> simp [eq_comm, and_comm]
  simp only [State.dueSamples, List.mem_filterMap, mem_allInputs, true_and, hone, exists_or]

theorem State.mem_dueWaits : c ∈ s.dueWaits ↔ ∃ l n, c = .safeWaitExpiry l ∧ (s.leg l).safeWait = some n ∧ n ≤ 1 := by
  simp only [State.dueWaits, List.mem_filterMap, mem_allLegs, true_and]
  refine exists_congr fun l => ?_
  cases (s.leg l).safeWait with
  | none => simp
  | some n => simp [eq_comm, and_comm]

theorem State.mem_dueClock : c ∈ s.dueClock ↔
    c = .clockLost ∧ s.monitor = .present ∧ s.timeUp .gap (s.refclkGap + 1) = true ∨
    c = .restoreCountRestart ∧ s.monitor ≠ .present ∧ s.timeUp .gap (s.refclkGap + 1) = true ∨
    ∃ n, c = .clockRestored ∧ s.monitor = .lost n ∧ s.timeUp .gap (s.refclkGap + 1) = false ∧
      s.timeUp .restore (n + 1) = true := by
  unfold State.dueClock
  cases hm : s.monitor with
  | present => cases s.timeUp .gap (s.refclkGap + 1) <;> simp
  | lost n => cases s.timeUp .gap (s.refclkGap + 1) <;> cases s.timeUp .restore (n + 1) <;> simp [and_comm]

theorem State.mem_dueEvents : c ∈ s.dueEvents ↔
    s.microEnds = true ∧ (c ∈ s.dueExpiries ∨ c ∈ s.dueSamples ∨ c ∈ s.dueWaits) ∨ c ∈ s.dueClock := by
  rw [State.dueEvents_eq]
  cases s.microEnds <;> simp [or_assoc]

end due

/-- Rows of one kind, one for each of distinct owners, are distinct. -/
theorem nodup_filterMap_of_owner {α : Type} {xs : List α} {f : α → Option Instr} (owner : Instr → Option α)
    (h : ∀ a c, f a = some c → owner c = some a) (hxs : xs.Nodup) : (xs.filterMap f).Nodup :=
  hxs.filterMap fun a b c ha hb => Option.some.inj ((h a c ha).symm.trans (h b c hb))

/-- The trip input that a row is about. -/
def sampledInput : Instr → Option TripInput
  | .tripInputLow i | .tripInputQualified i | .tripInputHigh i => some i
  | _ => none

theorem State.nodup_dueExpiries (s : State) : s.dueExpiries.Nodup := by
  unfold State.dueExpiries
  split
  · refine nodup_filterMap_of_owner (fun | .livenessExpiry p => some p | _ => none) (fun p c h => ?_) (by decide)
    split at h
    · split at h
      · cases h; rfl
      · cases h
    · cases h
  · exact .nil

theorem State.nodup_dueSamples (s : State) : s.dueSamples.Nodup := by
  refine nodup_filterMap_of_owner sampledInput (fun i c h => ?_) (by decide)
  unfold State.dueSample at h
  split at h
  · cases h; rfl
  · cases h
  · split at h
    · cases h; rfl
    · cases h
  · cases h; rfl
  · cases h
  · cases h; rfl

theorem State.nodup_dueWaits (s : State) : s.dueWaits.Nodup := by
  refine nodup_filterMap_of_owner (fun | .safeWaitExpiry l => some l | _ => none) (fun l c h => ?_) (by decide)
  split at h
  · split at h
    · cases h; rfl
    · cases h
  · cases h

theorem State.nodup_dueClock (s : State) : s.dueClock.Nodup := by
  unfold State.dueClock
  split
  · split <;> simp
  · split
    · simp
    · split <;> simp

/-- No row falls due twice with one tenth of a microsecond. -/
theorem State.nodup_dueEvents (s : State) : s.dueEvents.Nodup := by
  have hmicro : (s.dueExpiries ++ s.dueSamples ++ s.dueWaits).Nodup := by
    refine (s.nodup_dueExpiries.append s.nodup_dueSamples ?_).append s.nodup_dueWaits ?_
    · intro c hc hs
      obtain ⟨p, n, rfl, -⟩ := State.mem_dueExpiries.mp hc
      simp [State.mem_dueSamples] at hs
    · intro c hc hw
      obtain ⟨l, n, rfl, -⟩ := State.mem_dueWaits.mp hw
      simp [State.mem_dueExpiries, State.mem_dueSamples] at hc
  rw [State.dueEvents_eq]
  split
  · refine hmicro.append s.nodup_dueClock fun c hc hk => ?_
    rcases State.mem_dueClock.mp hk with ⟨rfl, -⟩ | ⟨rfl, -⟩ | ⟨n, rfl, -⟩ <;>
      simp [State.mem_dueExpiries, State.mem_dueSamples, State.mem_dueWaits] at hc
  · exact s.nodup_dueClock

theorem InputState.with_filter {v : InputState} {f : Filter} (h : v.filter = f) : { v with filter := f } = v := by
  subst h
  rfl

/-- What a tenth of a microsecond brings (R101, R112, R118, R122, R166). -/
theorem tenthPasses_happen {s : State} (hq : s.pending = []) : TenthPasses s (s.chosen.happen .oscillator) := by
  have hqueue : (s.chosen.happen .oscillator).pending = arrange (s.chosen.countTenth.choices) s.chosen.dueEvents := by
    rw [State.happen_oscillator, State.enqueueDue_pending, State.countTenth_frame]
    exact congrArg (· ++ _) hq
  have hframe := s.chosen.countTenth_frame
  refine ⟨fun q => ?_, fun l => ?_, fun i => ?_, ?_, ?_, fun c => ?_⟩
  · rw [State.happen_oscillator, State.enqueueDue_port, State.countTenth_port, State.chosen_microEnds]
    by_cases hm : microsecondEnds s = true
    · rw [if_pos hm, State.countMicrosecond_port]
      have hstep : (s.chosen.liveStepEnds = true) = (microsecondEnds s = true ∧ 999 ≤ s.hkoMicros) :=
        propext (State.liveStepEnds_iff.trans (by simp [hm, State.chosen]))
      simp only [hstep]
      rfl
    · rw [if_neg hm, if_neg (by simp [hm])]
      rfl
  · rw [State.happen_oscillator, State.enqueueDue_leg, State.countTenth_leg, State.chosen_microEnds]
    split
    · rw [State.countMicrosecond_leg]; rfl
    · rfl
  · rw [State.happen_oscillator, State.enqueueDue_input, State.countTenth_input, State.chosen_microEnds]
    rw [State.countMicrosecond_input, show s.chosen.input i = s.input i from rfl]
    by_cases hm : microsecondEnds s = true
    · rw [if_pos hm]
      cases hp : (s.input i).pinLow <;> cases hf : (s.input i).filter <;> simp [hm, hp, Filter.count]
    · rw [if_neg hm]
      cases hf : (s.input i).filter <;> simp [hm, InputState.with_filter hf]
  · have hcount : s.chosen.monitor.count = s.monitor.count := rfl
    simp only [State.liveStepEnds_iff, hcount] at hframe
    cases hmonitor : s.monitor <;> rw [hmonitor] at hframe <;>
      exact congrArg (fun v : State => { v with
        choices := (s.chosen.happen .oscillator).choices, pending := (s.chosen.happen .oscillator).pending }) hframe
  · rw [hqueue, nodup_arrange]
    exact s.chosen.nodup_dueEvents
  · rw [hqueue, mem_arrange, State.mem_dueEvents, State.mem_dueExpiries, State.mem_dueSamples, State.mem_dueWaits,
      State.mem_dueClock, or_assoc, or_assoc]
    rfl

/-! ### An edge of REFCLK -/

section refclk
variable {s : State} {g : Group} {c : Instr}

theorem State.mem_dueTick : c ∈ s.dueTick g ↔ tickRow s g c := by
  have hdue : (s.ticking g && decide ((s.group g).divisor ≤ (s.group g).division + 1)) = true ↔
      ((s.group g).run = .running ∨ (s.group g).run = .halting) ∧
        2 ^ (s.group g).timing.divider ≤ (s.group g).division + 1 := by
    rw [Bool.and_eq_true, State.ticking_iff, decide_eq_true_eq]
    rfl
  unfold State.dueTick tickRow State.lastTick
  by_cases hlast : (s.group g).timing.period ≤ (s.group g).tick + 1
  · simp [hdue, hlast, Nat.not_lt.mpr hlast, and_assoc]
  · simp [hdue, hlast, Nat.lt_of_not_le hlast, and_assoc]

theorem State.mem_dueEdge : c ∈ s.dueEdge g ↔ edgeRow s g c := by
  unfold State.dueEdge edgeRow
  split
  · next h => exact List.mem_singleton.trans (iff_self_and.mpr fun _ => h)
  · next h => simp only [List.not_mem_nil, h, and_false]

theorem State.mem_dueRefclk : c ∈ s.dueRefclk ↔ ∃ g, edgeRow s g c ∨ tickRow s g c := by
  simp only [State.dueRefclk, List.mem_flatMap, mem_allGroups, true_and, List.mem_append, State.mem_dueTick,
    State.mem_dueEdge, or_comm]

/-- The group that a row of an edge of REFCLK is about. -/
def clockedGroup : Instr → Option Group
  | .tick g | .frameEnd g | .syncEdge g _ => some g
  | _ => none

theorem tickRow_cases (h : tickRow s g c) : c = .tick g ∨ c = .frameEnd g := by
  obtain ⟨-, -, ⟨-, h⟩ | ⟨-, h⟩⟩ := h
  · exact .inl h
  · exact .inr h

theorem edgeRow_group (h : edgeRow s g c) : clockedGroup c = some g := by
  obtain ⟨rfl, -⟩ := h
  rfl

theorem tickRow_group (h : tickRow s g c) : clockedGroup c = some g := by
  rcases tickRow_cases h with rfl | rfl <;> rfl

/-- No row falls due twice with one edge of REFCLK. -/
theorem State.nodup_dueRefclk (s : State) : s.dueRefclk.Nodup := by
  refine List.nodup_flatMap.mpr ⟨fun g _ => ?_, ?_⟩
  · refine List.Nodup.append ?_ ?_ fun c ht he => ?_
    · unfold State.dueTick; split <;> simp
    · unfold State.dueEdge; split <;> simp
    · obtain ⟨rfl, -⟩ := State.mem_dueEdge.mp he
      rcases tickRow_cases (State.mem_dueTick.mp ht) with h | h <;> cases h
  · have hgroup {k : Group} {c : Instr} (h : c ∈ s.dueTick k ++ s.dueEdge k) : clockedGroup c = some k := by
      rcases List.mem_append.mp h with h | h
      · exact tickRow_group (State.mem_dueTick.mp h)
      · exact edgeRow_group (State.mem_dueEdge.mp h)
    refine List.Pairwise.imp (R := (· ≠ ·)) (fun hne c hg hh => hne ?_) (by decide)
    exact Option.some.inj ((hgroup hg).symm.trans (hgroup hh))

/-- A row whose owner's frame no recognised resync edge cuts short is taken (R23, R34). -/
theorem State.isStale_resync {rows : List Instr} (hrows : ∀ c, c ∈ rows → c ∈ s.dueRefclk) (h : tickRow s g c)
    (hstale : s.isStale rows c = true) : resyncRow s g := by
  obtain ⟨k, hc, hcut, hbefore⟩ := (s.isStale_iff rows c).mp hstale
  obtain rfl : k = g := by
    have hk : clockedGroup c = some k := by rcases hc with rfl | rfl <;> rfl
    exact Option.some.inj (hk.symm.trans (tickRow_group h))
  have hmem : Instr.syncEdge k (s.syncInput k).pinHigh ∈ rows :=
    List.idxOf_lt_length_iff.mp (hbefore.trans_le List.idxOf_le_length)
  obtain ⟨j, hedge | htick⟩ := State.mem_dueRefclk.mp (hrows _ hmem)
  · obtain ⟨hrun, hsel, htick⟩ := State.cutsFrame_iff.mp hcut
    obtain rfl : k = j := Option.some.inj (edgeRow_group hedge)
    exact ⟨hedge, hrun, hsel, htick⟩
  · rcases tickRow_cases htick with h | h <;> cases h

end refclk

/-- Of two members of a list without repetition, the one that stands behind the other in a part of it has the larger index. -/
theorem idxOf_lt_of_sublist {α : Type} [DecidableEq α] {xs before after : List α} {a b : α} (hxs : xs.Nodup)
    (hsub : (before ++ a :: after).Sublist xs) (hb : b ∈ after) : xs.idxOf a < xs.idxOf b := by
  obtain ⟨front, back, rfl, ha, hafter⟩ := List.cons_sublist_iff.mp ((List.sublist_append_right _ _).trans hsub)
  have hback : b ∈ back := hafter.subset hb
  have hfront : b ∉ front := fun h => (List.nodup_append.mp hxs).2.2 b h b hback rfl
  rw [List.idxOf_append_of_mem ha, List.idxOf_append_of_notMem hfront]
  exact (List.idxOf_lt_length_of_mem ha).trans_le (Nat.le_add_right _ _)

/-- What an edge of REFCLK brings (R23, R34, R165). -/
theorem refclkRises_happen {s : State} (hq : s.pending = []) : RefclkRises s (s.chosen.happen .refclk) := by
  have hqueue : (s.chosen.happen .refclk).pending = s.chosen.refclkRows (arrange s.chosen.choices s.chosen.dueRefclk) := by
    rw [State.happen_refclk, State.enqueue_pending]
    exact congrArg (· ++ _) hq
  have hdue (c : Instr) : c ∈ arrange s.chosen.choices s.chosen.dueRefclk ↔ ∃ g, edgeRow s g c ∨ tickRow s g c :=
    mem_arrange.trans State.mem_dueRefclk
  have hnodup : (arrange s.chosen.choices s.chosen.dueRefclk).Nodup := nodup_arrange.mpr s.chosen.nodup_dueRefclk
  refine ⟨fun g => ?_, fun g => ?_, rfl, ?_, fun c hc => ?_, fun g c hc => ?_, fun g c hc => ?_, ?_⟩
  · rw [State.happen_refclk, State.enqueue_group, State.countRefclk_group]
    exact congrArg (fun n => { s.group g with division := n }) (if_congr State.ticking_iff rfl rfl)
  · rw [State.happen_refclk, State.enqueue_syncInput, State.countRefclk_syncInput]
    rfl
  · rw [hqueue]
    exact State.nodup_refclkRows hnodup
  · rw [hqueue] at hc
    exact (hdue c).mp (State.mem_refclkRows.mp hc).1
  · rw [hqueue, State.mem_refclkRows]
    refine ⟨(hdue c).mpr ⟨g, .inl hc⟩, ?_⟩
    obtain ⟨rfl, -⟩ := hc
    rw [Bool.eq_false_iff, Ne, State.isStale_iff]
    rintro ⟨k, h | h, -⟩ <;> cases h
  · rw [hqueue, State.mem_refclkRows]
    by_cases hstale : s.chosen.isStale (arrange s.chosen.choices s.chosen.dueRefclk) c = true
    · exact .inr (State.isStale_resync (s := s.chosen) (fun _ => mem_arrange.mp) hc hstale)
    · exact .inl ⟨(hdue c).mpr ⟨g, .inr hc⟩, by simpa using hstale⟩
  · intro g c before after hc hresync hsplit hafter
    rw [hqueue] at hsplit
    have hmem : c ∈ s.chosen.refclkRows (arrange s.chosen.choices s.chosen.dueRefclk) := by
      rw [hsplit]
      simp [hafter]
    have hpart : (before ++ Instr.syncEdge g (s.syncInput g).pinHigh :: after).Sublist
        (arrange s.chosen.choices s.chosen.dueRefclk) := by
      rw [← hsplit]
      exact List.filter_sublist
    have hkept := (State.mem_refclkRows.mp hmem).2
    obtain ⟨-, hrun, hsel, htick⟩ := hresync
    refine Bool.eq_false_iff.mp hkept ((s.chosen.isStale_iff _ _).mpr ⟨g, tickRow_cases hc, ?_, ?_⟩)
    · exact State.cutsFrame_iff.mpr ⟨hrun, hsel, htick⟩
    · exact idxOf_lt_of_sublist hnodup hpart hafter

end Sys2Proof.Machine
end

section
/-! PROOFS. What happens while no command waits, the serial lines: an edge of SCKx, the row that it brings, and what stands on
SOx; and the idle step whole. -/

set_option Elab.async false

namespace Sys2Proof.Machine

/-! ### The row that a bit brings -/

section rows
variable (p : Port)

/-- One row has one order. -/
theorem arrange_of_length_le_one {n : Nat} {xs : List Instr} (h : xs.length ≤ 1) : arrange n xs = xs :=
  match xs, h with
  | [], _ => rfl
  | [_], _ => rfl

theorem requestRow_length (bytes : List Byte) : (requestRow p bytes).length ≤ 1 := by
  unfold requestRow
  split <;> simp

theorem PortState.sampledRows_length (q : PortState) : (q.sampledRows p).length ≤ 1 := by
  unfold PortState.sampledRows
  split
  · split
    · exact requestRow_length p _
    · simp
  · split <;> simp
  · split <;> simp
  all_goals simp

theorem State.clockRows_length (s : State) (high data : Bool) : (s.clockRows p high data).length ≤ 1 := by
  unfold State.clockRows
  split
  · exact PortState.sampledRows_length p _
  · simp

/-- A request that is malformed has its code and its LEN (R148). -/
theorem classifyRequest_malformed {bytes : List Byte} (h : classifyRequest p bytes = .malformed) :
    ∃ cmd len rest, bytes = cmd :: len :: rest := by
  match bytes with
  | cmd :: len :: rest => exact ⟨cmd, len, rest, rfl⟩
  | [] => cases h
  | [_] => cases h

theorem requestRows_requestRow (bytes : List Byte) : RequestRows p bytes (requestRow p bytes) := by
  unfold RequestRows requestRow
  cases hclass : classifyRequest p bytes with
  | good c => rfl
  | bad why => rfl
  | notWhole => rfl
  | malformed =>
    obtain ⟨cmd, len, rest, rfl⟩ := classifyRequest_malformed p hclass
    exact ⟨cmd, len, rest, rfl, rfl⟩

end rows

/-! ### An edge of SCKx -/

section edge
variable {q : PortState} {high data : Bool}

theorem PortState.clockLevel_released (hlevel : q.line.clockHigh ≠ high) (hsel : q.selectLow = false) :
    (q.clockLevel high data).line = { q.line with clockHigh := high } := by
  unfold PortState.clockLevel
  rw [if_neg hlevel, if_neg (by simp [hsel])]

theorem PortState.clockLevel_falling (hlevel : q.line.clockHigh ≠ false) (hsel : q.selectLow = true) :
    (q.clockLevel false data).line = { q.line with clockHigh := false, placed := q.line.placed + 1 } := by
  unfold PortState.clockLevel
  rw [if_neg hlevel, if_pos hsel]
  rfl

theorem PortState.clockLevel_rising (hlevel : q.line.clockHigh ≠ true) (hsel : q.selectLow = true) :
    (q.clockLevel true data).line = q.line.sample data (decide (q.txn = .request)) := by
  unfold PortState.clockLevel
  rw [if_neg hlevel, if_pos hsel]
  rfl

theorem SerialLine.sample_sampled (l : SerialLine) (keep : Bool) : (l.sample data keep).sampled = l.sampled + 1 := by
  unfold SerialLine.sample
  dsimp only
  split <;> rfl

/-- A port that stores no byte keeps those of its request (R147). -/
theorem SerialLine.sample_request_of_not_keep (l : SerialLine) : (l.sample data false).request = l.request := by
  unfold SerialLine.sample
  dsimp only
  split <;> rfl

theorem PortState.sampledRows_of_request {p : Port} (htxn : q.txn = .request) :
    q.sampledRows p = if q.line.bits = [] then requestRow p q.line.request else [] := by
  unfold PortState.sampledRows
  rw [htxn]

/-- A port that is not in REQUEST brings no row but the completion of a READ EVENT response (R130, R147, R150). -/
theorem PortState.otherRows_sampledRows {p : Port} (hlevel : q.line.clockHigh ≠ true) (hsel : q.selectLow = true) :
    OtherRows p q (q.line.sampled + 1) ((q.clockLevel true data).sampledRows p) := by
  have hline := PortState.clockLevel_rising (data := data) hlevel hsel
  have hsampled : (q.clockLevel true data).line.sampled = q.line.sampled + 1 := by
    rw [hline, SerialLine.sample_sampled]
  have hrequest (h : q.txn ≠ .request) : (q.clockLevel true data).line.request = q.line.request := by
    rw [hline, decide_eq_false h, SerialLine.sample_request_of_not_keep]
  unfold OtherRows PortState.sampledRows
  rw [PortState.clockLevel_txn]
  cases htxn : q.txn with
  | request => trivial
  | deselected => rfl
  | discard _ => rfl
  | response r after =>
    have hwhole : (q.clockLevel true data).line.wholeLength r = 8 * (q.line.request.length + r.bytes.length) := by
      rw [SerialLine.wholeLength, hrequest (by rw [htxn]; exact nofun)]
    cases after with
    | readHead => dsimp only; rw [hsampled, hwhole]
    | readEmpty _ => dsimp only; rw [hsampled, hwhole]
    | _ => rfl

end edge

theorem State.clockRows_rising {s : State} {p : Port} {data : Bool} (hlevel : (s.port p).line.clockHigh ≠ true)
    (hsel : (s.port p).selectLow = true) :
    s.clockRows p true data = ((s.port p).clockLevel true data).sampledRows p := by
  unfold State.clockRows
  rw [if_pos (by simp [hlevel, hsel])]

/-- What an edge of SCKx brings (R146, R147). -/
theorem serialClock_happen {s : State} {p : Port} {high data : Bool} (hq : s.pending = [])
    (hlevel : (s.port p).line.clockHigh ≠ high) : SerialClock p high data s (s.chosen.happen (.sck p high data)) := by
  have hrows : (s.chosen.happen (.sck p high data)).pending = s.clockRows p high data := by
    rw [State.happen_sck, State.enqueueDue_pending, arrange_of_length_le_one (State.clockRows_length p _ _ _)]
    exact congrArg (· ++ _) hq
  have hport (k : Port) : (s.chosen.happen (.sck p high data)).port k =
      if k = p then (s.port k).clockLevel high data else s.port k := by
    rw [State.happen_sck, State.enqueueDue_port, State.modPort_port]
    rfl
  have hown : (s.chosen.happen (.sck p high data)).port p = (s.port p).clockLevel high data := by rw [hport, if_pos rfl]
  refine ⟨fun k hk => by rw [hport, if_neg hk], ?_, rfl, fun hsel => ?_, fun hsel hhigh => ?_, fun hsel hhigh => ?_,
    fun hsel hhigh hbits => ?_, fun hsel hhigh b hb => ?_⟩
  · rw [hown]
    exact PortState.clockLevel_frame _ _ _
  · rw [hrows, hown, PortState.clockLevel_released hlevel hsel]
    exact ⟨rfl, State.clockRows_nil _ _ _ _ (.inr (.inr hsel))⟩
  · subst hhigh
    rw [hrows, hown, PortState.clockLevel_falling hlevel hsel]
    exact ⟨rfl, State.clockRows_nil _ _ _ _ (.inl rfl)⟩
  · subst hhigh
    rw [hrows, State.clockRows_rising hlevel hsel]
    exact PortState.otherRows_sampledRows hlevel hsel
  · subst hhigh
    have hline := (PortState.clockLevel_rising (data := data) hlevel hsel).trans (SerialLine.sample_part _ _ _ hbits)
    rw [hrows, hown, State.clockRows_rising hlevel hsel, hline]
    refine ⟨rfl, fun htxn => ?_⟩
    rw [PortState.sampledRows_of_request (by rwa [PortState.clockLevel_txn]), hline, if_neg (by simp)]
  · subst hhigh
    have hlength : 7 ≤ (s.port p).line.bits.length := by
      have := congrArg List.length hb
      rw [bitsOf_length, List.length_append, List.length_singleton] at this
      omega
    have hline := (PortState.clockLevel_rising (data := data) hlevel hsel).trans (SerialLine.sample_eighth _ _ _ hlength)
    rw [← hb, byteOfBits_bitsOf] at hline
    rw [hrows, hown, State.clockRows_rising hlevel hsel, hline]
    refine ⟨by simp, fun htxn => ?_⟩
    rw [PortState.sampledRows_of_request (by rwa [PortState.clockLevel_txn]), hline, if_pos rfl, if_pos (by simpa)]
    exact requestRows_requestRow p _

/-! ### What stands on SOx -/

theorem Result.code_eq (r : Result) : r.code = byteOf (resultTable.idxOf r) := by
  cases r <;> decide

/-- The sum of bytes as numbers is the sum that a check byte is made for. -/
theorem sum_toNat_mod (bytes : List Byte) : (bytes.map BitVec.toNat).sum % 256 = (byteSum bytes).toNat := by
  induction bytes with
  | nil => rfl
  | cons b bs ih =>
    rw [List.map_cons, List.sum_cons, byteSum, BitVec.toNat_add, ← ih]
    omega

/-- With its check byte a response sums to 0 (R150). -/
theorem Response.byteSum_bytes (r : Response) : byteSum r.bytes = 0 := by
  unfold Response.bytes
  dsimp only
  rw [byteSum_append, checkByte]
  generalize byteSum (r.result.code :: byteOf r.data.length :: r.data) = sum
  simp [byteSum]

theorem State.soLine_of_driven {s : State} {p : Port} (hop : s.condition = .operating)
    (hsel : (s.port p).selectLow = true) : s.soLine p = driven (s.port p).soBit := by
  unfold State.soLine
  rw [if_pos (by simp [State.operating, hop, hsel])]

/-- What the lines show is what the port holds (R146, R150). -/
theorem serialShows (s : State) : SerialShows s := by
  refine ⟨fun p r after _ => ⟨checkByte (r.result.code :: byteOf r.data.length :: r.data), ?_, ?_⟩, fun p h => ?_,
    fun p hop hsel h => ?_, fun p r after k i hop hsel htxn hi hplaced => ?_⟩
  · rw [← Result.code_eq]
    rfl
  · rw [sum_toNat_mod, Response.byteSum_bytes]
    rfl
  · unfold State.soLine
    rw [if_neg]
    rcases h with h | h <;> simp [State.operating, h]
  · rw [State.soLine_of_driven hop hsel]
    have hbit : (s.port p).soBit = false := by
      unfold PortState.soBit
      split
      · rfl
      next hplaced =>
      have hsends : (s.port p).txn.sends = [] := by
        have hresponse := h.resolve_left hplaced
        cases htxn : (s.port p).txn with
        | response r after => exact absurd htxn (hresponse r after)
        | _ => rfl
      rw [hsends]
      rfl
    rw [hbit]
    rfl
  · rw [State.soLine_of_driven hop hsel]
    have hbit : (s.port p).soBit = (r.bytes.getD k 0).getLsbD (7 - i) := by
      unfold PortState.soBit
      rw [if_neg (by omega), htxn, hplaced]
      rw [← flatMap_bitsOf_getD r.bytes k i hi]
      exact congrArg (fun n => (r.bytes.flatMap bitsOf).getD n false) (by omega)
    rw [hbit]
    rfl

/-! ### The idle step -/

theorem step_of_empty {s : State} (hq : s.pending = []) : step s = .next s.idle := by
  unfold step
  rw [hq]

/-- A level that SCKx has already is no edge (R146). -/
theorem happen_sck_of_same {s : State} {p : Port} {high data : Bool}
    (hsame : (s.port p).line.clockHigh = high) :
    s.chosen.happen (.sck p high data) = { s with choices := (s.chosen.happen (.sck p high data)).choices } := by
  have hrows : s.chosen.clockRows p high data = [] := by
    refine State.clockRows_nil _ _ _ _ ?_
    cases high with
    | false => exact .inl rfl
    | true => exact .inr (.inl hsame)
  have hport : s.chosen.modPort p (PortState.clockLevel high data) = s.chosen := by
    refine congrArg (fun ports => { s.chosen with ports := ports }) (PerPort.ext_get fun k => ?_)
    rw [PerPort.get_map]
    split
    · next hk => subst hk; exact PortState.clockLevel_same _ _ _ hsame
    · rfl
  rw [State.happen_sck, hport, hrows]
  exact congrArg (fun rows => { s with choices := (s.chosen.enqueueDue []).choices, pending := rows })
    (List.append_nil s.pending)

/-- A notice on its way reaches its group timer (R37). -/
theorem happen_notice_eq {s : State} {g : Group} (hq : s.pending = []) :
    s.chosen.happen (.notice g) = { s with
      choices := (s.chosen.happen (.notice g)).choices
      pending := if (s.group g).haltNotices = 0 then [] else [.fallbackHalt g] } := by
  have hdue : s.chosen.dueNotice g = if (s.group g).haltNotices = 0 then [] else [.fallbackHalt g] := rfl
  have hpending : (s.chosen.happen (.notice g)).pending = s.chosen.dueNotice g := by
    rw [State.happen_notice, State.enqueueDue_pending, arrange_of_length_le_one]
    · exact congrArg (· ++ _) hq
    · rw [hdue]
      split <;> simp
  rw [← hdue, ← hpending]
  rfl

/-- Settles O60: each happening by the lemma that says what it brings, and the form of a response and the bits on SOx. -/
theorem idleLetsOneThingHappen : Obligations.IdleLetsOneThingHappen := by
  intro s
  refine ⟨serialShows s, fun hq => ⟨fun hout => ?_, fun hop => ⟨?_, fun what => ?_⟩⟩⟩
  · rw [step_of_empty hq, State.idle_of_not_operating s hout]
  · rw [step_of_empty hq, State.idle_of_operating s hop]
  · cases what with
    | oscillator => exact tenthPasses_happen hq
    | refclk => exact refclkRises_happen hq
    | syncPin g high => exact ⟨fun k => State.modSync_syncInput s.chosen g _ k, rfl⟩
    | tripPin i low => exact ⟨fun k => State.modInput_input s.chosen i _ k, rfl⟩
    | sck p high data =>
      dsimp only
      split
      · next hsame => exact happen_sck_of_same hsame
      · next hedge => exact serialClock_happen hq hedge
    | notice g => exact happen_notice_eq hq

end Sys2Proof.Machine
end

section
/-! PROOFS. The set table and the leases behind its edits.

What a step can do to the set table is said once, in `step_table`: it removes sets and rewrites others in place, with no edit
that was not there (`Trims`), or it opens a set, places an edit in one, or seals one (`TableStep`). The limits of R45 to R49
and the leases of R46 and R57 follow from it. -/

set_option Elab.async false

namespace Sys2Proof.Machine

/-! ### What becomes of a set -/

/-- What may become of a set that stays in the table and is neither staged in nor sealed: an OPEN set loses edits, and a
PENDING one ends with its target kept (R45, R59, R64). -/
inductive ChangeSet.Becomes (c : ChangeSet) : ChangeSet → Prop where
  | same : c.Becomes c
  | loses {es rest : List Edit} (hbody : c.body = .opened es) (hrest : rest.Sublist es) :
    c.Becomes { c with body := .opened rest }
  | ends {es : List Edit} {target seq : Frame} (outcome : SetOutcome) (hbody : c.body = .pending es target seq) :
    c.Becomes { c with body := .done target outcome }

namespace ChangeSet.Becomes

variable {c d k : ChangeSet}

theorem trans (h : c.Becomes d) (hk : d.Becomes k) : c.Becomes k := by
  cases h with
  | same => exact hk
  | loses hbody hrest =>
    cases hk with
    | same => exact .loses hbody hrest
    | loses hbody' hrest' =>
      cases hbody'
      exact .loses hbody (hrest'.trans hrest)
    | ends outcome hbody' => exact nomatch hbody'
  | ends outcome hbody =>
    cases hk with
    | same => exact .ends outcome hbody
    | loses hbody' hrest' => exact nomatch hbody'
    | ends outcome hbody' => exact nomatch hbody'

theorem id_eq (h : c.Becomes d) : d.id = c.id := by cases h <;> rfl

theorem owner_eq (h : c.Becomes d) : d.owner = c.owner := by cases h <;> rfl

theorem group_eq (h : c.Becomes d) : d.group = c.group := by cases h <;> rfl

theorem isOpen_eq (h : c.Becomes d) : d.isOpen = c.isOpen := by
  cases h with
  | same => rfl
  | loses hbody _ => simp [ChangeSet.isOpen, hbody]
  | ends _ hbody => simp [ChangeSet.isOpen, hbody]

theorem edits_sublist (h : c.Becomes d) : d.edits.Sublist c.edits := by
  cases h with
  | same => exact .refl _
  | loses hbody hrest => simpa [ChangeSet.edits, hbody] using hrest
  | ends _ hbody => exact List.nil_sublist _

theorem ite {P : Prop} [Decidable P] (hd : P → c.Becomes d) (hk : ¬P → c.Becomes k) :
    c.Becomes (if P then d else k) := by
  split
  · exact hd ‹_›
  · exact hk ‹_›

/-- A set that ends, where it is PENDING. -/
theorem finish (outcome : SetOutcome) (c : ChangeSet) : c.Becomes (c.finish outcome) := by
  unfold ChangeSet.finish
  split
  · next hbody => exact .ends outcome hbody
  · exact .same
  · exact .same

theorem cancelledAs (why : CancelReason) (c : ChangeSet) : c.Becomes (cancelledAs why c) := by
  rw [← ChangeSet.finish_cancelled]
  exact finish _ c

/-- A set whose edit list, where it is OPEN, keeps some of its edits. -/
theorem withEdits {f : List Edit → List Edit} (hf : ∀ es, (f es).Sublist es) (c : ChangeSet) :
    c.Becomes (c.withEdits f) := by
  unfold ChangeSet.withEdits
  split
  · next hbody => exact .loses hbody (hf _)
  · exact .same
  · exact .same

theorem trimmed (s : State) (p : Port) (mask : Byte) (c : ChangeSet) : c.Becomes (s.trimmed p mask c) := by
  unfold State.trimmed
  split
  · next hbody => exact .loses hbody List.filter_sublist
  · exact .same
  · exact .same

end ChangeSet.Becomes

theorem cancelledAs_edits_of_closed {c : ChangeSet} (h : c.isOpen = false) (why : CancelReason) :
    (cancelledAs why c).edits = [] := by
  obtain ⟨i, o, g, b⟩ := c
  cases b with
  | opened es => exact nomatch h
  | pending es target seq => rfl
  | done target outcome => rfl

/-! ### What the laws of the table read -/

/-- The holders of the items and the groups of the legs: what the law of R57 reads beside the sets. -/
def State.leaseView (s : State) : (Item → Option Port) × (Leg → Group) := (s.holder, fun l => (s.leg l).group)

/-- What the laws of the set table and of the leases read. -/
def State.tableView (s : State) : List ChangeSet × Nat × (Item → Option Port) × (Leg → Group) :=
  (s.sets, s.nextId, s.leaseView)

theorem State.leaseView_eq_iff {s t : State} : t.leaseView = s.leaseView ↔
    (∀ i, t.holder i = s.holder i) ∧ ∀ l, (t.leg l).group = (s.leg l).group := by
  simp [State.leaseView, funext_iff]

theorem State.leaseView_eq {s t : State}
    (hl : ∀ l, (t.leg l).holder = (s.leg l).holder ∧ (t.leg l).group = (s.leg l).group)
    (hg : ∀ g, (t.group g).holder = (s.group g).holder) : t.leaseView = s.leaseView := by
  refine State.leaseView_eq_iff.mpr ⟨fun i => ?_, fun l => (hl l).2⟩
  cases i with
  | leg l => exact (hl l).1
  | group g => exact hg g

theorem State.tableView_eq_iff {s t : State} : t.tableView = s.tableView ↔
    t.sets = s.sets ∧ t.nextId = s.nextId ∧ t.leaseView = s.leaseView := by
  simp [State.tableView]

section view
variable (s : State)

@[simp] theorem tableView_modPort (p : Port) (f : PortState → PortState) : (s.modPort p f).tableView = s.tableView := rfl
@[simp] theorem tableView_modInput (i : TripInput) (f : InputState → InputState) :
    (s.modInput i f).tableView = s.tableView := rfl
@[simp] theorem tableView_raiseAll (e : Event) : (s.raiseAll e).tableView = s.tableView := rfl
@[simp] theorem tableView_startTimer (p : Port) : (s.startTimer p).tableView = s.tableView := by
  rw [State.startTimer_frame]; rfl
@[simp] theorem tableView_stopTimerIfIdle (p : Port) : (s.stopTimerIfIdle p).tableView = s.tableView := by
  rw [State.stopTimerIfIdle_frame]; rfl

theorem tableView_mapLegs {f : Leg → LegState → LegState}
    (hf : ∀ l v, (f l v).holder = v.holder ∧ (f l v).group = v.group) : (s.mapLegs f).tableView = s.tableView :=
  State.tableView_eq_iff.mpr ⟨rfl, rfl,
    State.leaseView_eq (fun l => by rw [State.mapLegs_leg]; exact hf l _) fun _ => rfl⟩

theorem tableView_modLeg (l : Leg) {f : LegState → LegState}
    (hf : ∀ v, (f v).holder = v.holder ∧ (f v).group = v.group) : (s.modLeg l f).tableView = s.tableView :=
  tableView_mapLegs s fun _ v => by split <;> simp [hf]

theorem tableView_modLegsOf (g : Group) {f : LegState → LegState}
    (hf : ∀ v, (f v).holder = v.holder ∧ (f v).group = v.group) : (s.modLegsOf g f).tableView = s.tableView :=
  tableView_mapLegs s fun _ v => by split <;> simp [hf]

theorem tableView_mapGroups {f : Group → GroupState → GroupState} (hf : ∀ g v, (f g v).holder = v.holder) :
    (s.mapGroups f).tableView = s.tableView :=
  State.tableView_eq_iff.mpr ⟨rfl, rfl,
    State.leaseView_eq (fun _ => ⟨rfl, rfl⟩) fun g => by rw [State.mapGroups_group, hf]⟩

theorem tableView_modGroup (g : Group) {f : GroupState → GroupState}
    (hf : ∀ v, (f v).holder = v.holder := by intro _; rfl) : (s.modGroup g f).tableView = s.tableView :=
  tableView_mapGroups s fun _ v => by split <;> simp [hf]

@[simp] theorem tableView_tickStart (g : Group) (first : Bool) (n : Nat) :
    (s.tickStart g first n).tableView = s.tableView :=
  tableView_modLegsOf s g fun _ => ⟨rfl, rfl⟩

@[simp] theorem tableView_stopOutputs (g : Group) : (s.stopOutputs g).tableView = s.tableView := by
  unfold State.stopOutputs
  split
  · exact tableView_modLegsOf s g fun _ => ⟨rfl, rfl⟩
  · rfl

@[simp] theorem tableView_enterStopped (g : Group) (why : GroupReason) :
    (s.enterStopped g why).tableView = s.tableView := by
  rw [State.enterStopped, tableView_raiseAll, tableView_stopOutputs, tableView_modGroup]

@[simp] theorem tableView_addCause (g : Group) (c : Cause) : (s.addCause g c).tableView = s.tableView := by
  unfold State.addCause
  split
  · rfl
  · rw [tableView_raiseAll, tableView_modGroup]

theorem LegState.forceOff_lease (tripped : Bool) (v : LegState) :
    (v.forceOff tripped).holder = v.holder ∧ (v.forceOff tripped).group = v.group := by
  rw [LegState.forceOff_eq]
  cases tripped <;> exact ⟨rfl, rfl⟩

theorem LegState.toSafe_lease (v : LegState) : v.toSafe.holder = v.holder ∧ v.toSafe.group = v.group := ⟨rfl, rfl⟩

@[simp] theorem tableView_forceOffLegs (pick : Leg → Bool) : (s.forceOffLegs pick).tableView = s.tableView :=
  tableView_mapLegs s fun _ v => by split <;> simp [LegState.forceOff_lease]

theorem State.raiseSeized_frame (before : State) (p : Port) (mask : Byte) :
    s.raiseSeized before p mask = { s with ports := (s.raiseSeized before p mask).ports } := by
  unfold State.raiseSeized
  generalize allItems = is
  induction is generalizing s with
  | nil => rfl
  | cons i is ih =>
    rw [List.foldl_cons, ih]
    split
    · split <;> rfl
    · rfl

@[simp] theorem tableView_raiseSeized (before : State) (p : Port) (mask : Byte) :
    (s.raiseSeized before p mask).tableView = s.tableView := by
  rw [State.raiseSeized_frame]; rfl

theorem State.stopTimers_frame (ps : List Port) :
    ps.foldl State.stopTimerIfIdle s = { s with ports := (ps.foldl State.stopTimerIfIdle s).ports } := by
  induction ps generalizing s with
  | nil => rfl
  | cons p ps ih => rw [List.foldl_cons, ih, State.stopTimerIfIdle_frame]

theorem tableView_stopTimers (ps : List Port) : (ps.foldl State.stopTimerIfIdle s).tableView = s.tableView := by
  rw [State.stopTimers_frame]; rfl

end view

/-! ### Sets that are removed or lose edits -/

/-- A change of the state by which sets leave the table and others lose edits or end, in place; the next id is kept or 1
again; and the edits that stay are leased as before. -/
structure Trims (s t : State) : Prop where
  sets : ∃ (keep : ChangeSet → Bool) (f : ChangeSet → ChangeSet),
    t.sets = (s.sets.filter keep).map f ∧ ∀ c, ChangeSet.Becomes c (f c)
  next : t.nextId = s.nextId ∨ t.nextId = 1
  leases : LeaseLaw s → LeaseLaw t

/-- The leases behind the edits that stay are those that were (R57). -/
theorem LeaseLaw.of_kept {s t : State} (h : LeaseLaw s)
    (hkept : ∀ d ∈ t.sets, ∀ e ∈ d.edits, ∃ c ∈ s.sets, e ∈ c.edits ∧ d.owner = c.owner ∧ d.group = c.group ∧
      t.holder e.item = s.holder e.item ∧ ∀ l, e.item = .leg l → (t.leg l).group = (s.leg l).group) : LeaseLaw t := by
  intro d hd e he
  obtain ⟨c, hc, hec, howner, hgroup, hholder, hhome⟩ := hkept d hd e he
  obtain ⟨hlease, hleg, hgrp⟩ := h c hc e hec
  refine ⟨by rw [hholder, howner, hlease], fun l hl => ?_, fun g hg => ?_⟩
  · rw [hhome l hl, hgroup, hleg l hl]
  · rw [hgroup, hgrp g hg]

namespace Trims

variable {s t u : State}

/-- A table filtered and rewritten in place, where no edit that stays has changed its holder or its leg's group. -/
theorem of_sets (keep : ChangeSet → Bool) (f : ChangeSet → ChangeSet) (hsets : t.sets = (s.sets.filter keep).map f)
    (hf : ∀ c, ChangeSet.Becomes c (f c)) (hnext : t.nextId = s.nextId ∨ t.nextId = 1)
    (hkept : LeaseLaw s → ∀ c ∈ s.sets, keep c = true → ∀ e ∈ (f c).edits,
      t.holder e.item = s.holder e.item ∧ ∀ l, e.item = .leg l → (t.leg l).group = (s.leg l).group) : Trims s t where
  sets := ⟨keep, f, hsets, hf⟩
  next := hnext
  leases hs := hs.of_kept fun d hd e he => by
    rw [hsets] at hd
    obtain ⟨c, hc, rfl⟩ := List.mem_map.mp hd
    obtain ⟨hmem, hkeep⟩ := List.mem_filter.mp hc
    exact ⟨c, hmem, (hf c).edits_sublist.subset he, (hf c).owner_eq, (hf c).group_eq, hkept hs c hmem hkeep e he⟩

/-- A table filtered and rewritten in place with no lease touched. -/
theorem of_leases (keep : ChangeSet → Bool) (f : ChangeSet → ChangeSet) (hsets : t.sets = (s.sets.filter keep).map f)
    (hf : ∀ c, ChangeSet.Becomes c (f c)) (hnext : t.nextId = s.nextId) (hleases : t.leaseView = s.leaseView) : Trims s t := by
  obtain ⟨hholder, hgroup⟩ := State.leaseView_eq_iff.mp hleases
  exact of_sets keep f hsets hf (.inl hnext) fun _ _ _ _ e _ => ⟨hholder e.item, fun l _ => hgroup l⟩

theorem of_view (h : t.tableView = s.tableView) : Trims s t := by
  obtain ⟨hsets, hnext, hleases⟩ := State.tableView_eq_iff.mp h
  exact of_leases (fun _ => true) id (by simp [hsets]) (fun _ => .same) hnext hleases

theorem refl (s : State) : Trims s s := of_view rfl

theorem trans (h : Trims s t) (k : Trims t u) : Trims s u where
  sets := by
    obtain ⟨keep, f, ht, hf⟩ := h.sets
    obtain ⟨keep', f', hu, hf'⟩ := k.sets
    refine ⟨fun c => keep' (f c) && keep c, f' ∘ f, ?_, fun c => (hf c).trans (hf' (f c))⟩
    rw [hu, ht, List.filter_map, List.filter_filter, List.map_map]
    rfl
  next := by
    rcases k.next with hk | hk
    · rw [hk]; exact h.next
    · exact .inr hk
  leases := k.leases ∘ h.leases

theorem view (h : Trims s t) (k : u.tableView = t.tableView) : Trims s u := h.trans (of_view k)

theorem ite {P : Prop} [Decidable P] (ht : P → Trims s t) (hu : ¬P → Trims s u) : Trims s (if P then t else u) := by
  split
  · exact ht ‹_›
  · exact hu ‹_›

theorem filterSets (s : State) (keep : ChangeSet → Bool) : Trims s { s with sets := s.sets.filter keep } :=
  of_leases keep id (by simp) (fun _ => .same) rfl rfl

theorem mapSets (s : State) {f : ChangeSet → ChangeSet} (hf : ∀ c, ChangeSet.Becomes c (f c)) :
    Trims s { s with sets := s.sets.map f } :=
  of_leases (fun _ => true) f (by simp) hf rfl rfl

theorem cancelSets (s : State) (pick : ChangeSet → Bool) (why : CancelReason) : Trims s (s.cancelSets pick why) := by
  refine (mapSets s (f := fun c => if pick c then cancelledAs why c else c) fun c => ?_).view ?_
  · exact .ite (fun _ => .cancelledAs why c) fun _ => .same
  · rw [State.cancelSets_frame]; rfl

theorem takeDueSet (g : Group) (f : Frame) (s : State) (c : ChangeSet) : Trims s (State.takeDueSet g f s c) := by
  refine of_leases (fun _ => true) _ (by rw [State.takeDueSet_sets, List.filter_true])
    (fun k => .ite (fun _ => .finish _ k) fun _ => .same) (by rw [State.takeDueSet_frame]) ?_
  refine State.leaseView_eq (fun l => ⟨?_, State.takeDueSet_leg_group g f s c l⟩) fun h => ?_
  · rw [State.takeDueSet_leg]; split <;> rfl
  · rw [State.takeDueSet_group]
    split
    · rw [State.writeEdits_group]; split <;> rfl
    · rfl

theorem commitFrame (s : State) (g : Group) (f : Frame) : Trims s (s.commitFrame g f) := by
  unfold State.commitFrame
  generalize s.dueSets g f = cs
  induction cs generalizing s with
  | nil => exact refl s
  | cons c cs ih => exact (takeDueSet g f s c).trans (ih _)

theorem frameStart (s : State) (g : Group) (first : Bool) : Trims s (s.frameStart g first) := by
  rw [State.frameStart_eq]
  have hcommit : Trims s (s.committed g) := (of_view (tableView_modGroup s g)).trans (commitFrame _ g _)
  exact hcommit.view ((tableView_tickStart _ _ _ _).trans (tableView_modGroup _ g))

theorem endFrame (s : State) (g : Group) : Trims s (s.endFrame g) := by
  have hcount : Trims s (s.countFrame g) := of_view (tableView_modGroup s g)
  rw [State.endFrame_eq]
  refine ite (fun _ => hcount.view ?_) fun _ => ite (fun _ => hcount.view ?_) fun _ => hcount.trans (frameStart _ g _)
  · exact tableView_enterStopped _ _ _
  · exact tableView_enterStopped _ _ _

theorem tripGroup (s : State) (g : Group) (c : Cause) : Trims s (s.tripGroup g c) := by
  unfold State.tripGroup State.firstTrip
  refine ite (fun _ => of_view (tableView_addCause s g c)) fun _ => ?_
  have htripped : Trims s (s.modGroup g fun v => { v with run := .tripped, causes := CauseSet.empty.add c }) :=
    of_view (tableView_modGroup s g)
  refine (htripped.trans (cancelSets _ (fun k => decide (k.group = g)) .tripped)).view ?_
  rw [tableView_raiseAll]
  exact tableView_modLegsOf _ g LegState.toSafe_lease

theorem tripGroups (s : State) (pick : Group → Bool) (c : Cause) : Trims s (s.tripGroups pick c) := by
  have h0 : Trims s (if pick .g0 then s.tripGroup .g0 c else s) := ite (fun _ => tripGroup s _ c) fun _ => refl s
  exact ite (fun _ => h0.trans (tripGroup _ _ c)) fun _ => h0

theorem assertInput (s : State) (i : TripInput) : Trims s (s.assertInput i) :=
  (of_view (tableView_modInput s i _)).trans (tripGroups _ _ _)

theorem lostLeg_group (s : State) (p : Port) (v : LegState) : (lostLeg s p v).group = v.group := by
  unfold lostLeg offLeg
  repeat' split
  all_goals rfl

/-- The loss of a port's leases with all its edits touches no edit of another port (R63, R66, R99). -/
theorem of_loss {p : Port} (keep : ChangeSet → Bool) (f : ChangeSet → ChangeSet)
    (hsets : t.sets = (s.sets.filter keep).map f) (hf : ∀ c, ChangeSet.Becomes c (f c)) (hnext : t.nextId = s.nextId)
    (hleg : ∀ l, t.leg l = lostLeg s p (s.leg l)) (hgroup : ∀ g, t.group g = lostGroup p (s.group g))
    (hgone : ∀ c, keep c = true → c.owner = p → (f c).edits = []) : Trims s t := by
  have hother (i : Item) (hi : s.holder i ≠ some p) : t.holder i = s.holder i := by
    cases i with
    | leg l => simp only [State.holder] at hi ⊢; rw [hleg, lostLeg, if_neg hi]
    | group g => simp only [State.holder] at hi ⊢; rw [hgroup, lostGroup, if_neg hi]
  refine of_sets keep f hsets hf (.inl hnext) fun hs c hc hkeep e he =>
    ⟨hother _ fun hheld => ?_, fun l _ => by rw [hleg, lostLeg_group]⟩
  obtain ⟨hlease, -, -⟩ := hs c hc e ((hf c).edits_sublist.subset he)
  rw [hgone c hkeep (Option.some.inj (hlease.symm.trans hheld))] at he
  exact List.not_mem_nil he

theorem expire (s : State) (p : Port) : Trims s (s.expire p) := by
  refine of_loss _ _ (State.expire_sets s p) (fun c => .ite (fun _ => .cancelledAs _ c) fun _ => .same)
    (by rw [State.expire_frame]) (State.expire_leg s p) (State.expire_group s p) fun c hkeep hp => ?_
  rw [if_pos hp]
  exact cancelledAs_edits_of_closed (by simpa [hp] using hkeep) _

theorem resetPort (s : State) (p : Port) (b : Bool) : Trims s (s.resetPort p b) :=
  of_loss _ id ((State.resetPort_sets s p b).trans (List.map_id _).symm) (fun _ => .same)
    (by rw [State.resetPort_frame]) (State.resetPort_leg s p b) (State.resetPort_group s p b)
    fun c hkeep hp => absurd hp (by simpa using hkeep)

/-- A reset of every block leaves no set (R67). -/
theorem of_empty (hsets : t.sets = []) (hnext : t.nextId = 1) : Trims s t :=
  of_sets (fun _ => false) id (by simp [hsets]) (fun _ => .same) (.inr hnext) fun _ _ _ h => nomatch h

theorem completeRead (s : State) (p : Port) : Trims s (s.completeRead p) := by
  unfold State.completeRead State.freeReported
  split
  · dsimp only
    split
    · refine ite (fun _ => ?_) fun _ => of_view rfl
      exact (of_view (tableView_modPort s p _)).trans (filterSets _ _)
    · exact of_view rfl
  · exact of_view rfl
  · exact refl s

theorem releaseSelect (s : State) (p : Port) (whole : Bool) : Trims s (s.releaseSelect p whole) := by
  have h0 : Trims s (s.modPort p PortState.release) := of_view rfl
  unfold State.releaseSelect State.endTxn
  refine ite (fun _ => ?_) fun _ => h0
  split
  · exact h0
  · exact of_view rfl
  · exact of_view rfl
  · exact of_view rfl
  · exact (h0.trans (resetPort _ p false)).view (tableView_modPort _ p _)
  · exact of_empty rfl rfl
  · exact of_view rfl
  · exact (h0.trans (ite (fun _ => completeRead _ p) fun _ => refl _)).view (tableView_modPort _ p _)

theorem mem (h : Trims s t) {d : ChangeSet} (hd : d ∈ t.sets) : ∃ c ∈ s.sets, c.Becomes d := by
  obtain ⟨keep, f, hsets, hf⟩ := h.sets
  rw [hsets] at hd
  obtain ⟨c, hc, rfl⟩ := List.mem_map.mp hd
  exact ⟨c, List.mem_of_mem_filter hc, hf c⟩

/-- No more sets pass a test that a set's changes leave as it is. -/
theorem countP_le (h : Trims s t) (test : ChangeSet → Bool) (htest : ∀ c d, c.Becomes d → test d = test c) :
    t.sets.countP test ≤ s.sets.countP test := by
  obtain ⟨keep, f, hsets, hf⟩ := h.sets
  have hcomp : test ∘ f = test := funext fun c => htest c (f c) (hf c)
  rw [hsets, List.countP_map, hcomp]
  exact List.filter_sublist.countP_le

end Trims

/-! ### What a step can do to the set table -/

/-- A set with an edit placed in it (R53, R54, R55). -/
def ChangeSet.staged (e : Edit) (c : ChangeSet) : ChangeSet := c.withEdits (placeEdit e)

/-- The edit is for an item that the set's owner holds, and for a leg of the set's group or for that group itself
(R46, R53, R54). -/
structure Leased (s : State) (c : ChangeSet) (e : Edit) : Prop where
  held : s.holder e.item = some c.owner
  leg : ∀ l, e.item = .leg l → (s.leg l).group = c.group
  group : ∀ g, e.item = .group g → g = c.group

/-- The set table and the leases after a step: sets removed or trimmed, or one set opened (R51), staged in (R53, R54) or
sealed (R75). -/
inductive TableStep (s t : State) : Prop where
  | trims (h : Trims s t)
  | opens (p : Port) (g : Group) (hnone : s.openSetOf p = none) (hroom : s.sets.length < 12)
    (hview : t.tableView =
      (s.sets ++ [{ id := s.newId, owner := p, group := g, body := .opened [] }], idAfter s.newId, s.leaseView))
  | stages (c : ChangeSet) (e : Edit) (hc : c ∈ s.sets) (ho : c.isOpen = true) (hlease : Leased s c e)
    (hroom : c.hasEdit e.item = true ∨ s.poolUsed < 64)
    (hview : t.tableView = (s.sets.map fun k => if k.id = c.id then k.staged e else k, s.nextId, s.leaseView))
  | seals (c : ChangeSet) (target seq : Frame) (hc : c ∈ s.sets) (ho : c.isOpen = true)
    (hlimit : s.pendingCount c.owner + s.doneCount c.owner < 4)
    (hview : t.tableView = ((s.sets.filter fun k => decide (k.id ≠ c.id)) ++
      [{ c with body := .pending c.edits target seq }], s.nextId, s.leaseView))

/-- The ids in use are read off the sets and the queues (R48). -/
theorem State.idInUse_congr {s t : State} (hsets : t.sets = s.sets) (hqueues : ∀ p, (t.port p).queue = (s.port p).queue) :
    t.idInUse = s.idInUse := by
  funext id
  simp [State.idInUse, hsets, hqueues]

theorem State.freeIdFrom_congr {s t : State} (h : t.idInUse = s.idInUse) (fuel id : Nat) :
    t.freeIdFrom fuel id = s.freeIdFrom fuel id := by
  induction fuel generalizing id with
  | zero => rfl
  | succ fuel ih => simp only [State.freeIdFrom, h, ih]

theorem State.newId_congr {s t : State} (hsets : t.sets = s.sets) (hnext : t.nextId = s.nextId)
    (hqueues : ∀ p, (t.port p).queue = (s.port p).queue) : t.newId = s.newId := by
  rw [State.newId, State.newId, hnext, State.freeIdFrom_congr (State.idInUse_congr hsets hqueues)]

namespace TableStep

variable {s t u : State}

theorem refl (s : State) : TableStep s s := .trims (.refl s)

theorem of_view (h : t.tableView = s.tableView) : TableStep s t := .trims (.of_view h)

theorem view (h : TableStep s t) (k : u.tableView = t.tableView) : TableStep s u := by
  cases h with
  | trims h => exact .trims (h.view k)
  | opens p g hnone hroom hview => exact .opens p g hnone hroom (k.trans hview)
  | stages c e hc ho hlease hroom hview => exact .stages c e hc ho hlease hroom (k.trans hview)
  | seals c target seq hc ho hlimit hview => exact .seals c target seq hc ho hlimit (k.trans hview)

/-- A step behind a change that leaves the table, the leases and the queues. -/
theorem after (hv : t.tableView = s.tableView) (hqueues : ∀ p, (t.port p).queue = (s.port p).queue)
    (h : TableStep t u) : TableStep s u := by
  obtain ⟨hsets, hnext, hleases⟩ := State.tableView_eq_iff.mp hv
  obtain ⟨hholder, hgroup⟩ := State.leaseView_eq_iff.mp hleases
  cases h with
  | trims h => exact .trims ((Trims.of_view hv).trans h)
  | opens p g hnone hroom hview =>
    rw [State.openSetOf, hsets] at hnone
    rw [hsets] at hroom
    rw [State.newId_congr hsets hnext hqueues, hsets, hleases] at hview
    exact .opens p g hnone hroom hview
  | stages c e hc ho hlease hroom hview =>
    rw [State.poolUsed, hsets] at hroom
    rw [hsets, hnext, hleases] at hview
    obtain ⟨hheld, hleg, hgrp⟩ := hlease
    refine .stages c e (hsets ▸ hc) ho ⟨hholder _ ▸ hheld, fun l hl => hgroup l ▸ hleg l hl, hgrp⟩ hroom hview
  | seals c target seq hc ho hlimit hview =>
    rw [State.pendingCount, State.doneCount, hsets] at hlimit
    rw [hsets, hnext, hleases] at hview
    exact .seals c target seq (hsets ▸ hc) ho hlimit hview

theorem ite {P : Prop} [Decidable P] (ht : P → TableStep s t) (hu : ¬P → TableStep s u) :
    TableStep s (if P then t else u) := by
  split
  · exact ht ‹_›
  · exact hu ‹_›

/-- A command taken on a port: what its owner does is what the step does. -/
theorem serve {p : Port} {c : Instr} {body : State → Reply} (h : serve p c body s = .next t)
    (hb : ∀ v, TableStep v (body v).state) : TableStep s t := by
  by_cases hs : CanTake s p
  · rw [serve_of_canTake hs] at h
    cases h
    refine .view (.after (tableView_modPort s p _) (fun q => ?_) (hb _)) (tableView_modPort _ p _)
    rw [State.modPort_port]
    split <;> rfl
  · rw [serve_of_not_canTake hs] at h
    cases h
    exact .refl s

theorem serve_trims {p : Port} {c : Instr} {body : State → Reply} (h : Machine.serve p c body s = .next t)
    (hb : ∀ v, Trims v (body v).state) : TableStep s t := serve h fun v => .trims (hb v)

theorem serve_view {p : Port} {c : Instr} {body : State → Reply} (h : Machine.serve p c body s = .next t)
    (hb : ∀ v, (body v).state.tableView = v.tableView) : TableStep s t := serve h fun v => .of_view (hb v)

theorem serveSetWork {p : Port} {c : Instr} {body : State → Reply} (h : serveSetWork p c body s = .next t)
    (hb : ∀ v, TableStep v (body v).state) : TableStep s t :=
  serve h fun v => by
    rw [Reply.leaveDue_frame]
    exact (hb v).view rfl

/-- An event that the part takes in OPERATING alone. -/
theorem inOperation {f : State → State} (h : inOperation f s = .next t) (hf : Trims s (f s)) : TableStep s t := by
  by_cases hs : s.condition = .operating
  · rw [inOperation_of_operating f hs] at h
    cases h
    exact .trims hf
  · rw [inOperation_of_not_operating f hs] at h
    cases h
    exact .refl s

theorem onRefclk {f : State → State} (h : onRefclk f s = .next t) (hf : Trims (clocked s) (f (clocked s))) :
    TableStep s t :=
  inOperation h (Trims.trans (t := clocked s) (.of_view rfl) hf)

end TableStep

/-! ### The owners of the commands -/

section bodies
variable (p : Port) (s : State)

/-- CLAIM takes free items alone, and an item with an edit is held (R57, R93). -/
theorem claimBody_trims (mask : Byte) : Trims s (claimBody p mask s).state := by
  unfold claimBody
  split
  · exact .refl s
  split
  · exact .refl s
  next hfree =>
  refine .view (t := s.setHolders (inMask mask) (some p)) ?_ (tableView_startTimer _ p)
  refine .of_sets (fun _ => true) id (by simp [State.setHolders]) (fun _ => .same) (.inl rfl) fun hs c hc _ e he =>
    ⟨?_, fun l _ => by rw [State.setHolders_leg]; split <;> rfl⟩
  obtain ⟨hheld, -, -⟩ := hs c hc e he
  have hnot := List.find?_eq_none.mp hfree e.item (mem_allItems _)
  rw [State.setHolders_holder]
  split
  · next hin =>
    have hown : s.holds p e.item = true := by simpa [hin, State.heldByOther, hheld] using hnot
    rw [State.holds_iff.mp hown]
  · rfl

/-- A set with an edit of an item is found by the search of RELEASE, whether it is OPEN or PENDING (R95). -/
theorem State.inSetNamed_ne_none {s : State} {c : ChangeSet} (hc : c ∈ s.sets) {e : Edit} (he : e ∈ c.edits) :
    s.inSetNamed c.owner e.item ≠ none := by
  have hhas : c.hasEdit e.item = true := List.any_eq_true.mpr ⟨e, he, by simp⟩
  intro hnone
  unfold State.inSetNamed at hnone
  dsimp only at hnone
  split at hnone
  · cases hnone
  · cases hnone
  · cases hnone
  next hopen hpending =>
  have hnotOpen := List.find?_eq_none.mp hopen c hc
  have hnotPending := List.find?_eq_none.mp hpending c hc
  obtain ⟨i, o, g, b⟩ := c
  cases b with
  | opened es => exact hnotOpen (by simpa [ChangeSet.isOpen] using hhas)
  | pending es target seq => exact hnotPending (by simpa [ChangeSet.isPending] using hhas)
  | done target outcome => exact List.not_mem_nil he

/-- RELEASE frees items of the port with no edit alone (R57, R95). -/
theorem releaseBody_trims (mask : Byte) : Trims s (releaseBody p mask s).state := by
  unfold releaseBody
  split
  · exact .refl s
  split
  · exact .refl s
  next hall =>
  split
  · exact .refl s
  next hfree =>
  refine .view (t := s.setHolders (inMask mask) none) ?_ (tableView_stopTimerIfIdle _ p)
  refine .of_sets (fun _ => true) id (by simp [State.setHolders]) (fun _ => .same) (.inl rfl) fun hs c hc _ e he =>
    ⟨?_, fun l _ => by rw [State.setHolders_leg]; split <;> rfl⟩
  obtain ⟨hheld, -, -⟩ := hs c hc e he
  rw [State.setHolders_holder, if_neg]
  intro hin
  have hown : s.holder e.item = some p :=
    State.holds_iff.mp (by simpa [hin] using List.find?_eq_none.mp hall e.item (mem_allItems _))
  have hp : c.owner = p := Option.some.inj (hheld.symm.trans hown)
  have hnone : s.inSetNamed p e.item = none := by
    simpa [hin] using List.findSome?_eq_none_iff.mp hfree e.item (mem_allItems _)
  exact State.inSetNamed_ne_none hc he (hp ▸ hnone)

/-- A set of a former holder after SEIZE (R64). -/
def State.seizedAs (s : State) (p : Port) (mask : Byte) (c : ChangeSet) : ChangeSet :=
  if s.seizureHits p mask (s.trimmed p mask c) then cancelledAs .seized (s.trimmed p mask c) else s.trimmed p mask c

/-- No edit of an item that SEIZE takes from a set's owner stays in the set (R64). -/
theorem State.not_taken_of_seizedAs {mask : Byte} {c : ChangeSet} {e : Edit} (he : e ∈ (s.seizedAs p mask c).edits) :
    s.takenFrom p mask c.owner e.item = false := by
  have howner : (s.trimmed p mask c).owner = c.owner := (ChangeSet.Becomes.trimmed s p mask c).owner_eq
  unfold State.seizedAs at he
  split at he
  · next hhit =>
    obtain ⟨i, o, g, b⟩ := c
    cases b with
    | opened es =>
      have hmem : e ∈ es.filter fun e => !s.takenFrom p mask o e.item := he
      simpa using (List.mem_filter.mp hmem).2
    | pending es target seq => exact absurd he List.not_mem_nil
    | done target outcome => exact absurd he List.not_mem_nil
  · next hhit =>
    rw [Bool.not_eq_true, State.seizureHits, List.any_eq_false, howner] at hhit
    simpa using hhit e he

/-- What SEIZE leaves of the leases and the sets, before its LEASE_LOST records and the timers (R64, R96). -/
def State.seizeItems (s : State) (p : Port) (mask : Byte) : State :=
  { s.setHolders (inMask mask) (some p) with sets := s.sets.map (s.trimmed p mask) }.cancelSets
    (s.seizureHits p mask) .seized

theorem State.seizeItems_holder (mask : Byte) (i : Item) :
    (s.seizeItems p mask).holder i = if inMask mask i then some p else s.holder i := by
  rw [State.seizeItems, State.cancelSets_holder]
  exact State.setHolders_holder s _ _ i

theorem State.seizeItems_sets (mask : Byte) : (s.seizeItems p mask).sets = s.sets.map (s.seizedAs p mask) := by
  rw [State.seizeItems, State.cancelSets_sets, List.map_map]
  rfl

theorem State.seizeItems_frame (mask : Byte) :
    s.seizeItems p mask = { s with
      ports := (s.seizeItems p mask).ports
      legs := s.legs.map fun l v => { v with holder := (s.seizeItems p mask).holder (.leg l) }
      groups := s.groups.map fun g v => { v with holder := (s.seizeItems p mask).holder (.group g) }
      sets := (s.seizeItems p mask).sets } := by
  have hholders := s.setHolders_frame (inMask mask) (some p)
  simp only [State.setHolders_holder] at hholders
  refine (State.cancelSets_frame _ _ _).trans ?_
  simp only [State.seizeItems_holder, State.seizeItems_sets, List.map_map, State.mk.injEq]
  exact ⟨rfl, rfl, rfl, rfl, rfl, congrArg State.legs hholders, congrArg State.groups hholders,
    rfl, rfl, rfl, rfl, rfl, rfl, rfl, rfl, rfl⟩

/-- SEIZE leaves an item to a set's owner, or the set loses its edit of the item (R57, R64). -/
theorem seizeBody_trims (mask : Byte) : Trims s (seizeBody p mask s).state := by
  unfold seizeBody
  split
  · exact .refl s
  split
  · exact .refl s
  refine .view (t := s.seizeItems p mask) ?_ ?_
  · have hbecomes (c : ChangeSet) : c.Becomes (s.seizedAs p mask c) :=
      (ChangeSet.Becomes.trimmed s p mask c).trans (.ite (fun _ => .cancelledAs _ _) fun _ => .same)
    refine .of_sets (fun _ => true) _ (by rw [State.seizeItems_sets, List.filter_true]) hbecomes
      (.inl (by rw [State.seizeItems_frame])) fun hs c hc _ e he => ⟨?_, fun l _ => ?_⟩
    · obtain ⟨hheld, -, -⟩ := hs c hc e ((hbecomes c).edits_sublist.subset he)
      have hkept := State.not_taken_of_seizedAs p s he
      rw [State.seizeItems_holder]
      split
      · next hin =>
        have hp : c.owner = p := by simpa [State.takenFrom, hin, State.holds_iff.mpr hheld] using hkept
        rw [hheld, hp]
      · rfl
    · rw [State.seizeItems_frame, State.leg_mk, PerLeg.get_map]
      rfl
  · dsimp only [accept]
    rw [tableView_stopTimers, tableView_startTimer, tableView_raiseSeized]
    rfl

theorem setFallbackBody_table (item value : Byte) : (setFallbackBody p item value s).state.tableView = s.tableView := by
  unfold setFallbackBody State.setItemFallback
  split
  · split
    · split
      · exact tableView_modLeg s _ fun _ => ⟨rfl, rfl⟩
      · exact tableView_modGroup s _
    · rfl
  · rfl

theorem setLivenessBody_table (named timeout : Byte) :
    (setLivenessBody p named timeout s).state.tableView = s.tableView := by
  unfold setLivenessBody
  split
  · rfl
  · split <;> rfl

theorem portResetBody_trims (named : Byte) : Trims s (portResetBody p named s).state := by
  unfold portResetBody
  split
  · exact .refl s
  split
  · exact .refl s
  split
  · exact .resetPort s _ _
  · exact .refl s

theorem openSetBody_table (group : Byte) : TableStep s (openSetBody p group s).state := by
  unfold openSetBody
  split
  · exact .refl s
  next g _ =>
  split
  · exact .refl s
  next hnone =>
  split
  · exact .refl s
  next hroom => exact .opens p g hnone (by simpa [Config.tableSlots] using hroom) rfl

/-- The OPEN set that the search finds is one of the port's. -/
theorem State.openSetOf_spec {s : State} {p : Port} {c : ChangeSet} (h : s.openSetOf p = some c) :
    c ∈ s.sets ∧ c.owner = p ∧ c.isOpen = true := by
  have hfound := List.find?_some h
  rw [Bool.and_eq_true, decide_eq_true_eq] at hfound
  exact ⟨List.mem_of_find?_eq_some h, hfound.1, hfound.2⟩

theorem stageEdit_table {c : ChangeSet} (hc : s.openSetOf p = some c) {e : Edit} (hlease : Leased s c e) :
    TableStep s (stageEdit s c e).state := by
  obtain ⟨hmem, -, hopen⟩ := State.openSetOf_spec hc
  unfold stageEdit
  split
  · exact .refl s
  next hroom =>
  refine .stages c e hmem hopen hlease ?_ rfl
  cases hhas : c.hasEdit e.item with
  | true => exact .inl rfl
  | false =>
    refine .inr (Nat.lt_of_not_le fun hfull => hroom ?_)
    rw [hhas, Bool.not_false, Bool.true_and, decide_eq_true_eq]
    exact hfull

theorem stageLegBody_table (leg : Byte) (record : RawPattern) : TableStep s (stageLegBody p leg record s).state := by
  unfold stageLegBody
  split
  · exact .refl s
  split
  · exact .refl s
  next c hc =>
  split
  · exact .refl s
  next hheld =>
  split
  · exact .refl s
  next hgroup =>
  split
  · exact .refl s
  · obtain ⟨-, howner, -⟩ := State.openSetOf_spec hc
    refine stageEdit_table p s hc ⟨?_, fun l hl => ?_, nofun⟩
    · rw [howner]; exact State.holds_iff.mp (by simpa [Edit.item] using hheld)
    · cases hl; exact not_not.mp hgroup

theorem stageGroupBody_table (group : Byte) (record : RawTiming) :
    TableStep s (stageGroupBody p group record s).state := by
  unfold stageGroupBody
  split
  · exact .refl s
  split
  · exact .refl s
  next c hc =>
  split
  · exact .refl s
  next hheld =>
  split
  · exact .refl s
  next hgroup =>
  split
  · exact .refl s
  · obtain ⟨-, howner, -⟩ := State.openSetOf_spec hc
    refine stageEdit_table p s hc ⟨?_, nofun, fun g hg => ?_⟩
    · rw [howner]; exact State.holds_iff.mp (by simpa [Edit.item] using hheld)
    · cases hg; exact not_not.mp hgroup

theorem unstageBody_trims (item : Byte) : Trims s (unstageBody p item s).state := by
  unfold unstageBody
  split
  · exact .refl s
  split
  · exact .refl s
  split
  · exact .refl s
  · exact .mapSets s fun c => .ite (fun _ => .withEdits (fun _ => List.filter_sublist) c) fun _ => .same

theorem abandonBody_trims : Trims s (abandonBody p s).state := by
  unfold abandonBody
  split
  · exact .refl s
  · exact .filterSets s _

theorem sealBody_table (form : Byte) (value : Frame) : TableStep s (sealBody p form value s).state := by
  unfold sealBody
  split
  · exact .refl s
  split
  · exact .refl s
  next c hc =>
  dsimp only
  split
  · exact .refl s
  split
  · exact .refl s
  split
  · exact .refl s
  next hlimit =>
  split
  · exact .refl s
  split
  · exact .refl s
  split
  · exact .refl s
  · obtain ⟨hmem, howner, hopen⟩ := State.openSetOf_spec hc
    exact .seals c _ _ hmem hopen (by rw [howner]; simpa [Config.portSetLimit] using hlimit) rfl

theorem withdrawBody_trims (setId : Byte) : Trims s (withdrawBody p setId s).state := by
  unfold withdrawBody
  split
  · exact .refl s
  split
  · exact .filterSets s _
  · exact .refl s

theorem ackSetBody_trims (setId : Byte) : Trims s (ackSetBody p setId s).state := by
  unfold ackSetBody
  split
  · exact .refl s
  split
  · exact .filterSets s _
  · exact .refl s

theorem setStatusBody_table (setId : Byte) : (setStatusBody p setId s).state.tableView = s.tableView := by
  unfold setStatusBody
  split <;> rfl

theorem startBody_trims (group : Byte) : Trims s (startBody p group s).state := by
  unfold startBody
  split
  · exact .refl s
  split
  · exact .refl s
  split
  · exact .refl s
  split
  · exact .refl s
  next g _ _ _ _ =>
  dsimp only [accept]
  unfold State.startGroup
  split
  · exact .ite (fun _ => .of_view (tableView_modGroup s g)) fun _ => (Trims.frameStart s g true).view rfl
  · exact .of_view (tableView_modGroup s g)
  · exact .refl s
  · exact .refl s
  · exact .refl s

theorem stopBody_table (group form : Byte) : (stopBody p group form s).state.tableView = s.tableView := by
  unfold stopBody
  split
  · split
    · rfl
    split
    · rfl
    next g atEnd _ _ _ _ =>
    dsimp only [accept]
    unfold State.stopGroup
    split
    · rfl
    · rfl
    · exact tableView_enterStopped s g _
    · split
      · exact tableView_modGroup s g
      · exact tableView_enterStopped s g _
    · split
      · rfl
      · exact tableView_enterStopped s g _
  · rfl

theorem configureGroupBody_table (group sync stopOutput : Byte) :
    (configureGroupBody p group sync stopOutput s).state.tableView = s.tableView := by
  unfold configureGroupBody State.configure
  split
  · split
    · rfl
    split
    · rfl
    dsimp only [accept]
    split
    · rw [tableView_modLegsOf _ _ (f := LegState.dropOutputs) fun _ => ⟨rfl, rfl⟩]
      exact tableView_modGroup s _
    · exact tableView_modGroup s _
  · rfl

/-- ASSIGN LEG moves a leg that no set edits (R20, R68). -/
theorem assignLegBody_trims (leg group : Byte) : Trims s (assignLegBody p leg group s).state := by
  unfold assignLegBody
  split
  · exact .refl s
  split
  · next l g _ _ =>
    split
    · exact .refl s
    next hfree =>
    split
    · exact .refl s
    refine .view (t := s.modLeg l fun v => { v with group := g }) ?_ (tableView_forceOffLegs _ _)
    refine .of_sets (fun _ => true) id (by simp) (fun _ => .same) (.inl rfl) fun _ c hc _ e he => ⟨?_, fun k hk => ?_⟩
    · cases e.item with
      | leg k => simp only [State.holder, State.modLeg_leg]; split <;> rfl
      | group k => rfl
    · rw [State.modLeg_leg, if_neg]
      rintro rfl
      refine hfree (State.legInSet_iff.mpr ⟨c, hc, List.any_eq_true.mpr ⟨e, he, by simpa using hk⟩⟩)
  · exact .refl s

theorem tripBody_trims (mask : Byte) : Trims s (tripBody p mask s).state := by
  unfold tripBody
  split
  · exact .refl s
  split
  · exact .refl s
  split
  · exact .refl s
  · exact .tripGroups s _ _

theorem clearTripBody_table (group : Byte) : (clearTripBody p group s).state.tableView = s.tableView := by
  unfold clearTripBody State.clearGroup
  split
  · rfl
  split
  · rfl
  split
  · rfl
  split
  · rfl
  · dsimp only [accept]
    rw [tableView_modLegsOf _ _ (f := fun v => { v.forceOff false with safeWait := none })
      fun v => LegState.forceOff_lease false v]
    exact tableView_modGroup s _

theorem mapTripBody_trims (input mask time : Byte) : Trims s (mapTripBody p input mask time s).state := by
  unfold mapTripBody State.mapInput
  split
  · exact .refl s
  split
  · next i m _ _ =>
    have h (f : InputState → InputState) : Trims s (s.modInput i f) := .of_view rfl
    dsimp only [accept]
    split
    · exact h _
    · exact .ite (fun _ => (h _).trans (.assertInput _ i)) fun _ => h _
    · exact (h _).trans (.tripGroups _ _ _)
  · exact .refl s

theorem setSafeBody_table (leg levelA levelB delay : Byte) :
    (setSafeBody p leg levelA levelB delay s).state.tableView = s.tableView := by
  unfold setSafeBody State.setSafe
  split
  · rfl
  split
  · split
    · rfl
    split
    · rfl
    · exact tableView_modLeg s _ fun v => by split <;> exact ⟨rfl, rfl⟩
  · rfl

end bodies

/-! ### The events -/

namespace TableStep

variable {s t : State}

theorem badRequest {p : Port} {bytes : List Byte} (h : execBadRequest p bytes s = .next t) : TableStep s t := by
  unfold execBadRequest at h
  split at h
  · split at h <;> cases h <;> exact of_view rfl
  · cases h; exact refl s

theorem malformed {p : Port} {cmd len : Byte} (h : execMalformed p cmd len s = .next t) : TableStep s t := by
  unfold execMalformed at h
  split at h <;> cases h <;> exact of_view rfl

theorem selectAsserted {p : Port} (h : execSelectAsserted p s = .next t) : TableStep s t := by
  unfold execSelectAsserted at h
  dsimp only at h
  split at h <;> cases h <;> exact of_view rfl

theorem fallbackHalt {g : Group} (h : execFallbackHalt g s = .next t) : TableStep s t := by
  have hnotice : (s.modGroup g fun v => { v with haltNotices := v.haltNotices - 1 }).tableView = s.tableView :=
    tableView_modGroup s g
  refine inOperation h (.ite (fun _ => .refl s) fun _ => .ite (fun _ => .of_view ?_) fun _ => .of_view hnotice)
  exact (tableView_modGroup _ g).trans hnotice

theorem tick {g : Group} (h : execTick g s = .next t) : TableStep s t :=
  onRefclk h (.ite (fun _ => .of_view ((tableView_tickStart _ _ _ _).trans (tableView_modGroup _ g))) fun _ => .refl _)

theorem frameEnd {g : Group} (h : execFrameEnd g s = .next t) : TableStep s t :=
  onRefclk h (.ite (fun _ => .endFrame _ g) fun _ => .refl _)

theorem syncEdge {g : Group} {rising : Bool} (h : execSyncEdge g rising s = .next t) : TableStep s t := by
  refine onRefclk h (.ite (fun _ => .refl _) fun _ => ?_)
  refine .trans (t := (clocked s).modSync g (SyncState.recognise rising)) (.of_view rfl) ?_
  unfold State.takeEdge
  exact .ite (fun _ => (Trims.frameStart _ g true).view rfl) fun _ => .ite (fun _ => .endFrame _ g) fun _ => .refl _

theorem tripInputLow {i : TripInput} (h : execTripInputLow i s = .next t) : TableStep s t := by
  refine .after (tableView_modInput s i _) (fun _ => rfl) (inOperation h (.ite (fun _ => ?_) fun _ => .refl _))
  unfold State.sampleLow
  dsimp only
  split
  · exact .ite (fun _ => .assertInput _ i) fun _ => .of_view rfl
  · exact .refl _
  · exact .refl _

theorem tripInputQualified {i : TripInput} (h : execTripInputQualified i s = .next t) : TableStep s t := by
  refine inOperation h ?_
  split
  · exact .ite (fun _ => .assertInput s i) fun _ => .refl s
  · exact .refl s
  · exact .refl s

theorem tripInputHigh {i : TripInput} (h : execTripInputHigh i s = .next t) : TableStep s t :=
  .after (tableView_modInput s i _) (fun _ => rfl) (inOperation h (.ite (fun _ => .of_view rfl) fun _ => .refl _))

theorem clockLost (h : execClockLost s = .next t) : TableStep s t :=
  inOperation h (.ite (fun _ => .refl s) fun _ =>
    .trans (t := { s with monitor := .lost 0, refclkGap := 0 }.raiseAll (.clock false)) (.of_view rfl) (.tripGroups _ _ _))

theorem startUpComplete (h : execStartUpComplete s = .next t) : TableStep s t := by
  unfold execStartUpComplete at h
  split at h <;> cases h <;> exact of_view rfl

end TableStep

/-- What a row of the table can do to the set table: an arm for each. -/
theorem exec_table {c : Instr} {s t : State} (h : exec c s = .next t) : TableStep s t := by
  have always {u : State} (hu : exec c s = .next u) (k : TableStep s u) : TableStep s t := by
    rw [hu] at h; cases h; exact k
  cases c with
  | identify p => exact .serve_view h fun _ => rfl
  | portStatus p named =>
    refine .serve_view h fun v => ?_
    unfold portStatusBody
    split
    · rfl
    · split <;> rfl
  | readEvent p => exact .serve_view h fun v => by rw [readEventBody_state]
  | setNotify p mask => exact .serve_view h fun _ => rfl
  | portReset p named => exact .serve_trims h fun v => portResetBody_trims p v named
  | deviceReset p => exact .serve_view h fun v => by unfold deviceResetBody; split <;> rfl
  | claim p mask => exact .serve_trims h fun v => claimBody_trims p v mask
  | release p mask => exact .serve_trims h fun v => releaseBody_trims p v mask
  | seize p mask => exact .serve_trims h fun v => seizeBody_trims p v mask
  | setFallback p item value => exact .serve_view h fun v => setFallbackBody_table p v item value
  | setLiveness p named timeout => exact .serve_view h fun v => setLivenessBody_table p v named timeout
  | readLeases p => exact .serve_view h fun _ => rfl
  | openSet p group => exact .serve h fun v => openSetBody_table p v group
  | stageLeg p leg record => exact .serveSetWork h fun v => stageLegBody_table p v leg record
  | stageGroup p group record => exact .serveSetWork h fun v => stageGroupBody_table p v group record
  | unstage p item => exact .serve_trims h fun v => unstageBody_trims p v item
  | abandon p => exact .serve_trims h fun v => abandonBody_trims p v
  | withdraw p setId => exact .serve_trims h fun v => withdrawBody_trims p v setId
  | ackSet p setId => exact .serve_trims h fun v => ackSetBody_trims p v setId
  | setStatus p setId => exact .serve_view h fun v => setStatusBody_table p v setId
  | start p group => exact .serve_trims h fun v => startBody_trims p v group
  | stop p group form => exact .serve_view h fun v => stopBody_table p v group form
  | configureGroup p group sync out => exact .serve_view h fun v => configureGroupBody_table p v group sync out
  | assignLeg p leg group => exact .serve_trims h fun v => assignLegBody_trims p v leg group
  | trip p mask => exact .serve_trims h fun v => tripBody_trims p v mask
  | clearTrip p group => exact .serve_view h fun v => clearTripBody_table p v group
  | mapTrip p input mask time => exact .serve_trims h fun v => mapTripBody_trims p v input mask time
  | setSafe p leg a b delay => exact .serve_view h fun v => setSafeBody_table p v leg a b delay
  | readActive p item => exact .serve_view h fun v => by unfold readActiveBody; split <;> rfl
  | readPending p item =>
    refine .serve_view h fun v => ?_
    unfold readPendingBody
    split
    · rfl
    · split <;> rfl
  | readOutputs p => exact .serve_view h fun _ => rfl
  | badRequest p bytes => exact .badRequest h
  | malformed p cmd len => exact .malformed h
  | selectAsserted p => exact .selectAsserted h
  | selectReleased p whole => exact always rfl (.trims (.releaseSelect s p whole))
  | readEventCompleted p => exact .inOperation (f := fun u => u.completeRead p) h (.completeRead s p)
  | portResetEffect p whole => exact always rfl (.trims (.releaseSelect s p whole))
  | deviceResetEffect p whole => exact always rfl (.trims (.releaseSelect s p whole))
  | livenessExpiry p => exact .inOperation h (.ite (fun _ => .expire s p) fun _ => .refl s)
  | fallbackHalt g => exact .fallbackHalt h
  | tick g => exact .tick h
  | frameEnd g => exact .frameEnd h
  | syncEdge g rising => exact .syncEdge h
  | tripInputLow i => exact .tripInputLow h
  | tripInputQualified i => exact .tripInputQualified h
  | tripInputHigh i => exact .tripInputHigh h
  | safeWaitExpiry l =>
    exact .inOperation h (.ite (fun _ => .of_view (tableView_modLeg s l fun _ => ⟨rfl, rfl⟩)) fun _ => .refl s)
  | clockLost => exact .clockLost h
  | restoreCountRestart => exact .inOperation h (.ite (fun _ => .of_view rfl) fun _ => .refl s)
  | clockRestored => exact .inOperation h (.ite (fun _ => .of_view rfl) fun _ => .refl s)
  | powerOn straps => exact always rfl (.ite (fun _ => .of_view rfl) fun _ => .refl s)
  | powerFail => exact always rfl (.trims (.of_empty rfl rfl))
  | resetnAsserted => exact always rfl (.trims (.of_empty rfl rfl))
  | resetnReleased straps => exact always rfl (.ite (fun _ => .of_view rfl) fun _ => .refl s)
  | startUpComplete => exact .startUpComplete h
  | _ p form value => exact .serveSetWork h fun v => sealBody_table p v form value

theorem State.happen_table (s : State) (h : Happening) : (s.happen h).tableView = s.tableView := by
  cases h with
  | oscillator =>
    refine State.tableView_eq_iff.mpr ⟨?_, ?_, State.leaseView_eq (fun l => ?_) fun g => ?_⟩
    · show s.countTenth.sets = _
      rw [State.countTenth_frame]
    · show s.countTenth.nextId = _
      rw [State.countTenth_frame]
    · rw [State.happen_oscillator, State.enqueueDue_leg, State.countTenth_leg, State.countMicrosecond_leg]
      split <;> exact ⟨rfl, rfl⟩
    · show (s.countTenth.group g).holder = _
      rw [State.countTenth_frame]
      rfl
  | refclk =>
    refine State.tableView_eq_iff.mpr ⟨rfl, rfl, State.leaseView_eq (fun _ => ⟨rfl, rfl⟩) fun g => ?_⟩
    rw [State.happen_refclk, State.enqueue_group, State.countRefclk_group]
  | syncPin g high => rfl
  | tripPin i low => rfl
  | sck p high data => rfl
  | notice g => rfl

/-- What a step can do to the set table: a row of the table, or idling. -/
theorem step_table {s t : State} (h : step s = .next t) : TableStep s t := by
  unfold step at h
  split at h
  · cases h
    exact .of_view (by unfold State.idle; split; exacts [State.happen_table _ _, rfl])
  · next rest _ => exact .after (t := { s with pending := rest }) rfl (fun _ => rfl) (exec_table h)

end Sys2Proof.Machine
end

section
/-! PROOFS. The limits of the set table and the leases of its edits.

OPEN SET finds a free id among the first 49 (`State.newId_spec`); sets removed or trimmed keep the limits
(`Trims.tableLaw`), and one set staged in or sealed is one set of the table replaced (`TableLaw.replace`). -/

set_option Elab.async false

namespace Sys2Proof.Machine

/-! ### The ids -/

theorem nthId_idAfter (start n : Nat) : nthId (idAfter start) n = nthId start (n + 1) := by
  induction n with
  | zero => rfl
  | succ n ih => exact congrArg idAfter ih

/-- The ids run through 1 to 255 and begin again (R48). -/
theorem nthId_eq {start : Nat} (h : 1 ≤ start ∧ start ≤ 255) (n : Nat) :
    nthId start n = (start - 1 + n) % 255 + 1 := by
  induction n with
  | zero => rw [nthId]; omega
  | succ n ih => rw [nthId, ih, idAfter]; split <;> omega

/-- The ids that are in use, some of them perhaps twice (R48). -/
def State.usedIds (s : State) : List Nat :=
  s.sets.map ChangeSet.id ++ allPorts.flatMap fun p => ((s.port p).queue.filter Event.isSetRecord).map Event.setId

theorem State.mem_usedIds {s : State} {id : Nat} (h : s.idInUse id = true) : id ∈ s.usedIds := by
  simp only [State.idInUse, Bool.or_eq_true, List.any_eq_true, Bool.and_eq_true, decide_eq_true_eq] at h
  rw [State.usedIds, List.mem_append]
  rcases h with ⟨c, hc, rfl⟩ | ⟨p, hp, e, he, hrecord, rfl⟩
  · exact .inl (List.mem_map_of_mem hc)
  · exact .inr (List.mem_flatMap.mpr ⟨p, hp, List.mem_map_of_mem (List.mem_filter.mpr ⟨he, hrecord⟩)⟩)

/-- Twelve sets and three queues of twelve records use at most 48 ids. -/
theorem State.usedIds_length {s : State} (hq : QueueLaw s) (hs : TableLaw s) : s.usedIds.length ≤ 48 := by
  have hport (p : Port) : (((s.port p).queue.filter Event.isSetRecord).map Event.setId).length ≤ 12 := by
    rw [List.length_map]
    exact List.filter_sublist.length_le.trans (hq p)
  have hsets := hs.slots
  have h0 := hport .p0
  have h1 := hport .p1
  have h2 := hport .p2
  simp only [State.usedIds, allPorts, List.flatMap_cons, List.flatMap_nil, List.length_append, List.length_nil,
    List.length_map] at *
  omega

/-- Of the first 49 ids that OPEN SET looks at, one is not in use (R48). -/
theorem State.exists_free_id {s : State} (hq : QueueLaw s) (hs : TableLaw s) :
    ∃ k, k ≤ 48 ∧ s.idInUse (nthId s.nextId k) = false := by
  by_contra hnone
  have hused (k : Nat) (hk : k ≤ 48) : s.idInUse (nthId s.nextId k) = true := by
    rw [← Bool.not_eq_false]
    exact fun hfree => hnone ⟨k, hk, hfree⟩
  have hnodup : ((List.range 49).map (nthId s.nextId)).Nodup := by
    refine List.nodup_range.map_on fun i hi j hj hij => ?_
    rw [List.mem_range] at hi hj
    rw [nthId_eq hs.nextRange, nthId_eq hs.nextRange] at hij
    omega
  have hsub : (List.range 49).map (nthId s.nextId) ⊆ s.usedIds := fun id hid => by
    obtain ⟨k, hk, rfl⟩ := List.mem_map.mp hid
    exact State.mem_usedIds (hused k (by rw [List.mem_range] at hk; omega))
  have hlength := (List.subperm_of_subset hnodup hsub).length_le.trans (State.usedIds_length hq hs)
  rw [List.length_map, List.length_range] at hlength
  omega

/-- The search ends at the first id that is not in use. -/
theorem State.freeIdFrom_eq {s : State} {k : Nat} : ∀ {start fuel : Nat}, k ≤ fuel →
    (∀ j, j < k → s.idInUse (nthId start j) = true) → s.idInUse (nthId start k) = false →
    s.freeIdFrom fuel start = nthId start k := by
  induction k with
  | zero =>
    intro start fuel _ _ hfree
    cases fuel with
    | zero => rfl
    | succ fuel => exact if_neg (by simpa [nthId] using hfree)
  | succ k ih =>
    intro start fuel hk hused hfree
    cases fuel with
    | zero => omega
    | succ fuel =>
      rw [State.freeIdFrom, if_pos (by simpa [nthId] using hused 0 (by omega)), ← nthId_idAfter]
      refine ih (by omega) (fun j hj => ?_) ?_
      · rw [nthId_idAfter]; exact hused (j + 1) (by omega)
      · rw [nthId_idAfter]; exact hfree

/-- The id that OPEN SET assigns is the first one, from the next id on, that is not in use (R48). -/
theorem State.newId_spec {s : State} (hq : QueueLaw s) (hs : TableLaw s) :
    ∃ k, k ≤ 48 ∧ (∀ j, j < k → s.idInUse (nthId s.nextId j) = true) ∧
      s.idInUse (nthId s.nextId k) = false ∧ s.newId = nthId s.nextId k := by
  have hex : ∃ k, s.idInUse (nthId s.nextId k) = false := (State.exists_free_id hq hs).imp fun _ h => h.2
  obtain ⟨n, hn, hfree⟩ := State.exists_free_id hq hs
  have hk : Nat.find hex ≤ 48 := (Nat.find_min' hex hfree).trans hn
  have hused (j : Nat) (hj : j < Nat.find hex) : s.idInUse (nthId s.nextId j) = true := by
    simpa using Nat.find_min hex hj
  exact ⟨_, hk, hused, Nat.find_spec hex, State.freeIdFrom_eq (by omega) hused (Nat.find_spec hex)⟩

theorem State.newId_fresh {s : State} (hq : QueueLaw s) (hs : TableLaw s) {c : ChangeSet} (hc : c ∈ s.sets) :
    c.id ≠ s.newId := by
  obtain ⟨k, -, -, hfree, hid⟩ := State.newId_spec hq hs
  intro h
  rw [← hid] at hfree
  exact Bool.false_ne_true (hfree.symm.trans (by simp [State.idInUse]; exact .inl ⟨c, hc, h⟩))

theorem State.newId_range {s : State} (hq : QueueLaw s) (hs : TableLaw s) : 1 ≤ s.newId ∧ s.newId ≤ 255 := by
  obtain ⟨k, -, -, -, hid⟩ := State.newId_spec hq hs
  rw [hid, nthId_eq hs.nextRange]
  omega

theorem idAfter_range {id : Nat} (h : id ≤ 255) : 1 ≤ idAfter id ∧ idAfter id ≤ 255 := by
  unfold idAfter
  split <;> omega

/-! ### The limits of the set table -/

/-- A set is in one of its three states (R45). -/
theorem ChangeSet.state_cases (c : ChangeSet) :
    c.isOpen = true ∧ c.isPending = false ∧ c.isDone = false ∨
    c.isOpen = false ∧ c.isPending = true ∧ c.isDone = false ∨
    c.isOpen = false ∧ c.isPending = false ∧ c.isDone = true := by
  obtain ⟨i, o, g, b⟩ := c
  cases b with
  | opened es => exact .inl ⟨rfl, rfl, rfl⟩
  | pending es target seq => exact .inr (.inl ⟨rfl, rfl, rfl⟩)
  | done target outcome => exact .inr (.inr ⟨rfl, rfl, rfl⟩)

/-- The PENDING and DONE sets of a port are its sets that are not OPEN. -/
theorem State.closedCount_eq (s : State) (p : Port) : s.pendingCount p + s.doneCount p =
    s.sets.countP fun c => decide (c.owner = p) && !c.isOpen := by
  unfold State.pendingCount State.doneCount
  induction s.sets with
  | nil => rfl
  | cons c cs ih =>
    by_cases ho : c.owner = p
    · rcases c.state_cases with ⟨h1, h2, h3⟩ | ⟨h1, h2, h3⟩ | ⟨h1, h2, h3⟩ <;>
        simp [ho, h1, h2, h3, ← ih] <;> omega
    · simpa [List.countP_cons, ho] using ih

/-- Sets removed or trimmed use no more slots, and no more of a port's share of the table. -/
theorem Trims.tableLaw {s t : State} (h : Trims s t) (hs : TableLaw s) : TableLaw t := by
  obtain ⟨keep, f, hsets, hf⟩ := h.sets
  have hkept : ((s.sets.filter keep).map fun c => c.edits.length).Sublist (s.sets.map fun c => c.edits.length) :=
    List.filter_sublist.map _
  have hids : t.sets.map ChangeSet.id = (s.sets.filter keep).map ChangeSet.id := by
    rw [hsets, List.map_map]
    exact List.map_congr_left fun c _ => (hf c).id_eq
  refine ⟨?_, ?_, fun p => ?_, fun p => ?_, ?_, fun d hd => ?_, ?_, fun d hd => ?_⟩
  · rw [hsets, List.length_map]
    exact List.filter_sublist.length_le.trans hs.slots
  · refine Nat.le_trans ?_ ((hkept.sum_le_sum fun _ _ => Nat.zero_le _).trans hs.pool)
    rw [State.poolUsed, hsets, List.map_map]
    exact List.sum_le_sum fun c _ => (hf c).edits_sublist.length_le
  · refine (h.countP_le _ fun c d hd => ?_).trans (hs.opened p)
    rw [hd.owner_eq, hd.isOpen_eq]
  · rw [State.closedCount_eq]
    refine (h.countP_le _ fun c d hd => ?_).trans (State.closedCount_eq s p ▸ hs.limit p)
    rw [hd.owner_eq, hd.isOpen_eq]
  · rw [hids]
    exact hs.ids.sublist (List.filter_sublist.map _)
  · obtain ⟨c, hc, hcd⟩ := h.mem hd
    rw [hcd.id_eq]
    exact hs.idRange c hc
  · rcases h.next with hn | hn
    · rw [hn]; exact hs.nextRange
    · rw [hn]; exact ⟨Nat.le_refl 1, by omega⟩
  · obtain ⟨c, hc, hcd⟩ := h.mem hd
    exact (hs.single c hc).sublist (hcd.edits_sublist.map _)

theorem State.tableView_eq_mk {t : State} {cs : List ChangeSet} {n : Nat} {v : (Item → Option Port) × (Leg → Group)} :
    t.tableView = (cs, n, v) ↔ t.sets = cs ∧ t.nextId = n ∧ t.leaseView = v := by
  simp [State.tableView]

/-- A new empty set with a new id. -/
theorem TableLaw.opens {s t : State} (hs : TableLaw s) (hq : QueueLaw s) {p : Port} {g : Group}
    (hnone : s.openSetOf p = none) (hroom : s.sets.length < 12)
    (hsets : t.sets = s.sets ++ [{ id := s.newId, owner := p, group := g, body := .opened [] }])
    (hnext : t.nextId = idAfter s.newId) : TableLaw t := by
  have hnoOpen : s.openCount p = 0 := List.countP_eq_zero.mpr (List.find?_eq_none.mp hnone)
  refine ⟨?_, ?_, fun q => ?_, fun q => ?_, ?_, fun d hd => ?_, ?_, fun d hd => ?_⟩
  · rw [hsets, List.length_append, List.length_singleton]
    omega
  · simpa [State.poolUsed, hsets, ChangeSet.edits] using hs.pool
  · have hq := hs.opened q
    rw [State.openCount, hsets, List.countP_append, List.countP_singleton, ← State.openCount]
    by_cases h : p = q
    · subst h; simp [hnoOpen, ChangeSet.isOpen]
    · simpa [h] using hq
  · have hq := hs.limit q
    rw [State.closedCount_eq] at hq
    rw [State.closedCount_eq, hsets, List.countP_append, List.countP_singleton]
    simpa [ChangeSet.isOpen] using hq
  · rw [hsets, List.map_append, List.nodup_append]
    refine ⟨hs.ids, List.nodup_singleton _, fun id hid id' hid' => ?_⟩
    obtain ⟨c, hc, rfl⟩ := List.mem_map.mp hid
    rw [List.map_singleton, List.mem_singleton] at hid'
    rw [hid']
    exact State.newId_fresh hq hs hc
  · rw [hsets, List.mem_append, List.mem_singleton] at hd
    rcases hd with hd | rfl
    · exact hs.idRange d hd
    · exact State.newId_range hq hs
  · rw [hnext]
    exact idAfter_range (State.newId_range hq hs).2
  · rw [hsets, List.mem_append, List.mem_singleton] at hd
    rcases hd with hd | rfl
    · exact hs.single d hd
    · exact List.nodup_nil

/-- One set `c` of the table changed into `d`, at any place of the table. -/
theorem TableLaw.replace {s t : State} (hs : TableLaw s) {c d : ChangeSet} {before after : List ChangeSet}
    (hsplit : s.sets = before ++ c :: after) (hsets : t.sets.Perm (before ++ d :: after)) (hnext : t.nextId = s.nextId)
    (hid : d.id = c.id) (howner : d.owner = c.owner) (hopen : d.isOpen = true → c.isOpen = true)
    (hlimit : d.isOpen = false → s.pendingCount c.owner + s.doneCount c.owner < 4)
    (hpool : s.poolUsed + d.edits.length ≤ 64 + c.edits.length) (hsingle : (d.edits.map Edit.item).Nodup) :
    TableLaw t := by
  have hc : c ∈ s.sets := by rw [hsplit]; simp
  have hmem {k : ChangeSet} (hk : k ∈ t.sets) : k = d ∨ k ∈ s.sets := by
    have := hsets.subset hk
    rw [List.mem_append, List.mem_cons] at this
    rw [hsplit, List.mem_append, List.mem_cons]
    rcases this with h | h | h
    · exact .inr (.inl h)
    · exact .inl h
    · exact .inr (.inr (.inr h))
  refine ⟨?_, ?_, fun p => ?_, fun p => ?_, ?_, fun k hk => ?_, hnext ▸ hs.nextRange, fun k hk => ?_⟩
  · have hslots := hs.slots
    rw [hsplit] at hslots
    rw [hsets.length_eq]
    simpa using hslots
  · rw [State.poolUsed, (hsets.map _).sum_eq]
    rw [State.poolUsed, hsplit] at hpool
    simp only [List.map_append, List.map_cons, List.sum_append, List.sum_cons] at hpool ⊢
    omega
  · have hone := hs.opened p
    rw [State.openCount, hsplit, List.countP_append, List.countP_cons] at hone
    rw [State.openCount, hsets.countP_eq, List.countP_append, List.countP_cons, howner]
    cases hd : d.isOpen with
    | true => rwa [hopen hd] at hone
    | false => simp only [Bool.and_false, Bool.false_eq_true, if_false]; omega
  · have hfour := hs.limit p
    rw [State.closedCount_eq] at hfour
    rw [State.closedCount_eq, hsets.countP_eq, List.countP_append, List.countP_cons, howner]
    cases hd : d.isOpen with
    | true =>
      rw [hsplit, List.countP_append, List.countP_cons] at hfour
      simp only [Bool.not_true, Bool.and_false, Bool.false_eq_true, if_false]
      omega
    | false =>
      by_cases hp : c.owner = p
      · have hless := hlimit hd
        rw [hp, State.closedCount_eq, hsplit, List.countP_append, List.countP_cons] at hless
        simp only [hp, decide_true, Bool.not_false, Bool.and_self, if_true]
        omega
      · rw [hsplit, List.countP_append, List.countP_cons] at hfour
        simp only [hp, decide_false, Bool.false_and, Bool.false_eq_true, if_false]
        omega
  · rw [(hsets.map _).nodup_iff]
    have hids := hs.ids
    rw [hsplit] at hids
    simpa [hid] using hids
  · rcases hmem hk with rfl | hk
    · rw [hid]; exact hs.idRange c hc
    · exact hs.idRange k hk
  · rcases hmem hk with rfl | hk
    · exact hsingle
    · exact hs.single k hk

/-! #### An edit placed -/

theorem ChangeSet.staged_of_open {c : ChangeSet} (h : c.isOpen = true) (e : Edit) :
    c.staged e = { c with body := .opened (stagedList e c) } := by
  obtain ⟨i, o, g, b⟩ := c
  cases b with
  | opened es => rfl
  | pending es target seq => exact nomatch h
  | done target outcome => exact nomatch h

/-- An edit replaces the one of its item, or takes a further slot (R46, R55). -/
theorem stagedList_length (e : Edit) (c : ChangeSet) :
    (stagedList e c).length = if c.hasEdit e.item then c.edits.length else c.edits.length + 1 := by
  unfold stagedList
  split <;> simp

/-- An edit list with an edit placed has one edit for each item, if it had (R46, R55). -/
theorem stagedList_nodup {e : Edit} {c : ChangeSet} (h : (c.edits.map Edit.item).Nodup) :
    ((stagedList e c).map Edit.item).Nodup := by
  unfold stagedList
  split
  · have hitems : (c.edits.map fun x => if x.item = e.item then e else x).map Edit.item = c.edits.map Edit.item := by
      rw [List.map_map]
      refine List.map_congr_left fun x _ => ?_
      dsimp only [Function.comp]
      split
      · next hx => exact hx.symm
      · rfl
    rw [hitems]
    exact h
  · next hnew =>
    rw [List.map_append, List.nodup_append]
    refine ⟨h, List.nodup_singleton _, fun i hi j hj => ?_⟩
    obtain ⟨x, hx, rfl⟩ := List.mem_map.mp hi
    rw [List.map_singleton, List.mem_singleton] at hj
    rintro rfl
    exact hnew (List.any_eq_true.mpr ⟨x, hx, by simpa using hj⟩)

theorem TableLaw.stages {s t : State} (hs : TableLaw s) {c : ChangeSet} {e : Edit} (hc : c ∈ s.sets)
    (ho : c.isOpen = true) (hroom : c.hasEdit e.item = true ∨ s.poolUsed < 64)
    (hsets : t.sets = s.sets.map fun k => if k.id = c.id then k.staged e else k) (hnext : t.nextId = s.nextId) :
    TableLaw t := by
  obtain ⟨before, after, hsplit⟩ := List.append_of_mem hc
  have hids := hs.ids
  rw [hsplit] at hids
  rw [hsplit, map_of_id hids, ChangeSet.staged_of_open ho] at hsets
  refine hs.replace hsplit (.of_eq hsets) hnext rfl rfl (fun _ => ho) nofun ?_ (stagedList_nodup (hs.single c hc))
  show s.poolUsed + (stagedList e c).length ≤ _
  have hpool := hs.pool
  rw [stagedList_length]
  rcases hroom with h | h
  · rw [if_pos h]; omega
  · split <;> omega

/-! #### A set sealed -/

theorem filter_of_id {a b : List ChangeSet} {c : ChangeSet} (h : ((a ++ c :: b).map ChangeSet.id).Nodup) :
    ((a ++ c :: b).filter fun k => decide (k.id ≠ c.id)) = a ++ b := by
  rw [List.map_append, List.map_cons, List.nodup_append, List.nodup_cons] at h
  obtain ⟨-, ⟨hb, -⟩, ha⟩ := h
  have before : (a.filter fun k => decide (k.id ≠ c.id)) = a := List.filter_eq_self.mpr fun k hk => by
    simpa using ha _ (List.mem_map_of_mem hk) _ (List.mem_cons_self ..)
  have behind : (b.filter fun k => decide (k.id ≠ c.id)) = b := List.filter_eq_self.mpr fun k hk => by
    simpa using fun hid : k.id = c.id => hb (hid ▸ List.mem_map_of_mem hk)
  rw [List.filter_append, List.filter_cons_of_neg (by simp), before, behind]

theorem TableLaw.seals {s t : State} (hs : TableLaw s) {c : ChangeSet} {target seq : Frame} (hc : c ∈ s.sets)
    (hlimit : s.pendingCount c.owner + s.doneCount c.owner < 4)
    (hsets : t.sets = (s.sets.filter fun k => decide (k.id ≠ c.id)) ++ [{ c with body := .pending c.edits target seq }])
    (hnext : t.nextId = s.nextId) : TableLaw t := by
  obtain ⟨before, after, hsplit⟩ := List.append_of_mem hc
  have hids := hs.ids
  rw [hsplit] at hids
  rw [hsplit, filter_of_id hids] at hsets
  refine hs.replace hsplit (d := { c with body := .pending c.edits target seq }) ?_ hnext rfl rfl nofun
    (fun _ => hlimit) (Nat.add_le_add_right hs.pool _) (hs.single c hc)
  rw [hsets]
  exact (List.perm_append_singleton _ _).trans List.perm_middle.symm

/-- Settles O5: sets removed or trimmed keep the limits, and a set is opened, staged in or sealed only where they leave
room. -/
theorem setTableKept : Obligations.SetTableKept := by
  intro s t hq hs hstep
  cases step_table hstep with
  | trims h => exact h.tableLaw hs
  | opens p g hnone hroom hview =>
    obtain ⟨hsets, hnext, -⟩ := State.tableView_eq_mk.mp hview
    exact hs.opens hq hnone hroom hsets hnext
  | stages c e hc ho _ hroom hview =>
    obtain ⟨hsets, hnext, -⟩ := State.tableView_eq_mk.mp hview
    exact hs.stages hc ho hroom hsets hnext
  | seals c target seq hc _ hlimit hview =>
    obtain ⟨hsets, hnext, -⟩ := State.tableView_eq_mk.mp hview
    exact hs.seals hc hlimit hsets hnext

/-! ### The leases behind the edits -/

theorem leaseLaw_iff {s : State} : LeaseLaw s ↔ ∀ c ∈ s.sets, ∀ e ∈ c.edits, Leased s c e :=
  ⟨fun h c hc e he => ⟨(h c hc e he).1, (h c hc e he).2.1, (h c hc e he).2.2⟩,
    fun h c hc e he => ⟨(h c hc e he).held, (h c hc e he).leg, (h c hc e he).group⟩⟩

/-- A set of the same owner and group, with the leases as they were. -/
theorem Leased.congr {s t : State} {c d : ChangeSet} {e : Edit} (h : Leased s c e) (hview : t.leaseView = s.leaseView)
    (howner : d.owner = c.owner) (hgroup : d.group = c.group) : Leased t d e := by
  obtain ⟨hholder, hlegs⟩ := State.leaseView_eq_iff.mp hview
  exact ⟨by rw [hholder, howner, h.held], fun l hl => by rw [hlegs, hgroup, h.leg l hl],
    fun g hg => by rw [hgroup, h.group g hg]⟩

/-- Settles O6: the edits that a step keeps are leased as before, and the one that a STAGE places is for an item of the
set's owner and group. -/
theorem editsStayLeased : Obligations.EditsStayLeased := by
  intro s t htable hs hstep
  have hlaw := leaseLaw_iff.mp hs
  cases step_table hstep with
  | trims h => exact h.leases hs
  | opens p g _ _ hview =>
    obtain ⟨hsets, -, hleases⟩ := State.tableView_eq_mk.mp hview
    refine leaseLaw_iff.mpr fun d hd x hx => ?_
    rw [hsets, List.mem_append, List.mem_singleton] at hd
    rcases hd with hd | rfl
    · exact (hlaw d hd x hx).congr hleases rfl rfl
    · exact absurd hx List.not_mem_nil
  | stages c e hc ho hlease _ hview =>
    obtain ⟨hsets, -, hleases⟩ := State.tableView_eq_mk.mp hview
    refine leaseLaw_iff.mpr fun d hd x hx => ?_
    rw [hsets] at hd
    obtain ⟨k, hk, rfl⟩ := List.mem_map.mp hd
    split at hx
    · next hid =>
      rw [if_pos hid]
      obtain rfl := htable.eq_of_id hc hk hid
      have hold : x = e ∨ x ∈ k.edits := (mem_withEdits hx).elim .inr mem_placeEdit
      rw [ChangeSet.staged_of_open ho]
      rcases hold with rfl | hold
      · exact hlease.congr hleases rfl rfl
      · exact (hlaw k hk x hold).congr hleases rfl rfl
    · next hid =>
      rw [if_neg hid]
      exact (hlaw k hk x hx).congr hleases rfl rfl
  | seals c target seq hc _ _ hview =>
    obtain ⟨hsets, -, hleases⟩ := State.tableView_eq_mk.mp hview
    refine leaseLaw_iff.mpr fun d hd x hx => ?_
    rw [hsets, List.mem_append, List.mem_singleton] at hd
    rcases hd with hd | rfl
    · exact (hlaw d (List.mem_of_mem_filter hd) x hx).congr hleases rfl rfl
    · exact (hlaw c hc x hx).congr hleases rfl rfl

end Sys2Proof.Machine
end

section
/-! PROOFS. The commands of the set unit, READ EVENT and READ LEASES.

The bytes of a set's status and of an event record are those of section 9.7, a set is found by its port and its id, and each
command then answers what its owner gives back. -/

set_option Elab.async false

namespace Sys2Proof.Machine

/-! ### Bytes -/

@[simp] theorem byteOf_toNat (b : Byte) : byteOf b.toNat = b := by
  rw [byteOf, BitVec.ofNat_toNat, BitVec.setWidth_eq]

theorem CheckFail.code_eq (why : CheckFail) : why.code = failReason why := by cases why <;> rfl

theorem CancelReason.code_eq (why : CancelReason) : why.code = cancelReason why := by cases why <;> rfl

theorem GroupReason.code_eq (why : GroupReason) : why.code = groupReason why := by cases why <;> rfl

theorem holderCode_eq (h : Option Port) : holderCode h = holderByte h := by cases h <;> rfl

/-- The outcome, reason and failing item that the model sends are those of R62. -/
theorem ChangeSet.outcome_eq (c : ChangeSet) : [c.outcomeCode, c.reasonCode, c.failingItem] = outcomeBytes c := by
  obtain ⟨i, o, g, b⟩ := c
  cases b with
  | opened es => rfl
  | pending es target seq => rfl
  | done target outcome =>
    cases outcome with
    | applied f => rfl
    | failed why l f => simp [ChangeSet.outcomeCode, ChangeSet.reasonCode, ChangeSet.failingItem, outcomeBytes,
        CheckFail.code_eq]
    | cancelled why => simp [ChangeSet.outcomeCode, ChangeSet.reasonCode, ChangeSet.failingItem, outcomeBytes,
        CancelReason.code_eq]

/-- The status of a set is sent in the layout of section 9.7 (R62). -/
theorem ChangeSet.statusBytes_eq (c : ChangeSet) : c.statusBytes = statusLayout c := by
  rw [ChangeSet.statusBytes, be32_eq, be32_eq, ChangeSet.outcome_eq]
  obtain ⟨i, o, g, b⟩ := c
  cases b with
  | opened es => rfl
  | pending es target seq => rfl
  | done target outcome => cases outcome <;> rfl

/-- An event record is sent in the layout of section 9.7 (R127). -/
theorem Event.bytes_eq (e : Event) : e.bytes = recordBytes e := by
  have hzero : be32 0 = [0, 0, 0, 0] := by decide
  cases e with
  | setApplied id g frame => rw [Event.bytes, be32_eq]; rfl
  | setFailed id why item frame => rw [Event.bytes, be32_eq, Event.reason, CheckFail.code_eq]; rfl
  | setCancelled id why => rw [Event.bytes, Event.reason, CancelReason.code_eq, Event.frame, hzero]; rfl
  | leaseLost item why => rw [Event.bytes, Event.frame, hzero]; cases why <;> rfl
  | groupState g why fn => rw [Event.bytes, be32_eq, Event.reason, GroupReason.code_eq]; rfl
  | trip g cause => rw [Event.bytes, Event.frame, hzero]; cases cause <;> rfl
  | clock restored => rw [Event.bytes, Event.frame, hzero]; cases restored <;> rfl
  | portReset p bySupervisor => rw [Event.bytes, Event.frame, hzero]; cases bySupervisor <;> rfl

/-! ### Finding a set -/

/-- An item code up to 7 names an item (R45). -/
theorem itemArg_of_le {b : Byte} (h : b.toNat ≤ 7) : ∃ i, itemArg b = some i := by
  have hlist : b.toNat ∈ allItems.map Item.num := by
    have : b.toNat = 0 ∨ b.toNat = 1 ∨ b.toNat = 2 ∨ b.toNat = 3 ∨ b.toNat = 4 ∨ b.toNat = 5 ∨ b.toNat = 6 ∨
        b.toNat = 7 := by omega
    simpa [allItems, Item.num, legNum, groupNum] using this
  obtain ⟨i, -, hi⟩ := List.mem_map.mp hlist
  exact ⟨i, itemArg_of_num hi.symm⟩

theorem TableLaw.ownSet_eq_some {s : State} (h : TableLaw s) {p : Port} {c : ChangeSet} (hc : c ∈ s.sets)
    (hp : c.owner = p) : s.ownSet p c.id = some c :=
  find?_of_unique _ _ c hc (by simp [hp]) fun k hk hf => h.eq_of_id hc hk (by simp at hf; exact hf.1)

theorem State.ownSet_eq_none {s : State} {p : Port} {id : Nat} (h : ∀ c ∈ s.sets, c.id = id → c.owner ≠ p) :
    s.ownSet p id = none :=
  List.find?_eq_none.mpr fun c hc => by simpa using h c hc

/-- Of a table whose ids differ, the set with an id is removed alone (R47). -/
theorem TableLaw.removeSet_eq {s : State} (h : TableLaw s) {c : ChangeSet} (hc : c ∈ s.sets) :
    (s.removeSet c.id).sets = s.sets.filter fun k => decide (k ≠ c) :=
  List.filter_congr fun _ hk => decide_eq_decide.mpr
    (not_congr ⟨fun hid => h.eq_of_id hc hk hid, congrArg ChangeSet.id⟩)

/-- Rewriting the edits of an OPEN set rewrites that set of the table. -/
theorem TableLaw.withEdits_sets {s : State} (h : TableLaw s) {c : ChangeSet} (hc : c ∈ s.sets) (ho : c.isOpen = true)
    (f : List Edit → List Edit) : (s.updateSet c.id (ChangeSet.withEdits f)).sets =
      s.sets.map fun k => if k.id = c.id then { c with body := .opened (f c.edits) } else k := by
  refine List.map_congr_left fun k hk => ?_
  by_cases hid : k.id = c.id
  · obtain rfl := h.eq_of_id hc hk hid
    obtain ⟨i, o, g, b⟩ := k
    cases b with
    | opened es => rfl
    | pending es target seq => exact nomatch ho
    | done target outcome => exact nomatch ho
  · simp only [if_neg hid]

section taking
variable (s : State) (p : Port) (c : Instr)

@[simp] theorem State.taking_ownSet (q : Port) (id : Nat) : (s.taking p c).ownSet q id = s.ownSet q id := rfl
@[simp] theorem State.taking_sets : (s.taking p c).sets = s.sets := rfl
@[simp] theorem State.taking_supervisor : (s.taking p c).supervisor = s.supervisor := rfl
@[simp] theorem State.taking_holder (i : Item) : (s.taking p c).holder i = s.holder i := State.modPort_holder s p _ i

theorem State.taking_queue (q : Port) : ((s.taking p c).port q).queue = (s.port q).queue := by
  rw [State.taking_port]; split <;> rfl

theorem State.taking_overrun (q : Port) : ((s.taking p c).port q).overrun = (s.port q).overrun := by
  rw [State.taking_port]; split <;> rfl

@[simp] theorem State.taking_newId : (s.taking p c).newId = s.newId :=
  State.newId_congr rfl rfl (s.taking_queue p c)

end taking

/-! ### OPEN SET -/

/-- Settles O27: the refusals in R51's order, and the first free id. -/
theorem openSetOpensAnEmptySet : Obligations.OpenSetOpensAnEmptySet := by
  intro p group s hcan hqueue htable
  refine ⟨fun hbad => refuses_of hcan rfl (by simp [openSetBody, groupArg_eq_none.mpr hbad]), fun g hg =>
    ⟨fun c hc hp ho => refuses_of hcan rfl ?_, fun hnone => ⟨fun hfull => refuses_of hcan rfl ?_, fun hroom => ?_⟩⟩⟩
  all_goals replace hg := groupArg_eq_some.mpr hg
  · simp [openSetBody, hg, htable.openSetOf_eq_some hc hp ho]
  · simp [openSetBody, hg, State.openSetOf_eq_none hnone, Config.tableSlots, hfull]
  · obtain ⟨k, hk, hused, hfree, hid⟩ := State.newId_spec hqueue htable
    have hnotFull : ¬12 ≤ s.sets.length := by omega
    obtain ⟨t, hans, hframe, hserved⟩ := answers_of_accept hcan rfl (c := .openSet p group)
      (body := openSetBody p group) (data := [byteOf (nthId s.nextId k), group])
      (u := { s.taking p (.openSet p group) with
        sets := s.sets ++ [{ id := nthId s.nextId k, owner := p, group := g, body := .opened [] }]
        nextId := nthId s.nextId (k + 1) })
      (by simp [openSetBody, hg, State.openSetOf_eq_none hnone, Config.tableSlots, hnotFull, hid, nthId])
      fun _ => rfl
    exact ⟨t, k, hk, hused, hfree, hans, hframe, hserved⟩

/-! ### STAGE GROUP -/

theorem timingArg_of_bad {raw : RawTiming} (h : raw.period.toNat < 4 ∨ 7 < raw.divider.toNat) : timingArg raw = none :=
  if_pos h

theorem timingArg_of_good {raw : RawTiming} (hp : 4 ≤ raw.period.toNat) (hd : raw.divider.toNat ≤ 7) :
    timingArg raw =
      some { period := raw.period.toNat, divider := raw.divider.toNat, budget := raw.budget.toNat } :=
  if_neg (by omega)

/-- Settles O29: the refusals in R54's order, and the edit placed. -/
theorem stageGroupPlacesTheEdit : Obligations.StageGroupPlacesTheEdit := by
  intro p group raw s hcan htable
  have hrefuse {r : Result} {data : List Byte} (hr : r ≠ .ok)
      (hb : stageGroupBody p group raw (s.taking p (.stageGroup p group raw)) =
        refuse (s.taking p (.stageGroup p group raw)) r data) : Refuses (.stageGroup p group raw) p s r data :=
    refuses_of_setWork hcan rfl hb hr
  refine ⟨fun hbad => hrefuse nofun ?_, fun g hg => ⟨fun hnone => hrefuse nofun ?_, fun c hc hp ho => ?_⟩⟩
  · simp [stageGroupBody, groupArg_eq_none.mpr hbad]
  all_goals replace hg := groupArg_eq_some.mpr hg
  · simp [stageGroupBody, hg, State.openSetOf_eq_none hnone]
  have hopen := htable.openSetOf_eq_some hc hp ho
  refine ⟨fun hh => hrefuse nofun ?_, fun hh => ⟨fun hne => hrefuse nofun ?_, fun heq => ⟨fun hbad => hrefuse nofun ?_,
    fun hper hdiv hnew hfull => hrefuse nofun ?_, fun hper hdiv hroom => ?_⟩⟩⟩
  · simp [stageGroupBody, hg, hopen, mt State.holds_iff.mp hh]
  all_goals replace hh := State.holds_iff.mpr hh
  · simp [stageGroupBody, hg, hopen, hh, hne]
  · simp [stageGroupBody, hg, hopen, hh, ← heq, timingArg_of_bad hbad]
  all_goals have htiming := timingArg_of_good hper hdiv
  · simp [stageGroupBody, hg, hopen, hh, ← heq, htiming, stageEdit, Edit.item, hnew, hfull, Config.poolSlots]
  · intro e
    have hbody : stageGroupBody p group raw (s.taking p (.stageGroup p group raw)) =
        stageEdit (s.taking p (.stageGroup p group raw)) c e := by
      simp [stageGroupBody, hg, hopen, hh, ← heq, htiming, e]
    obtain ⟨t, hans, hframe, hserved⟩ := answers_setWork hcan rfl (c := .stageGroup p group raw)
      (hbody.trans (stageEdit_accepts hroom)) fun _ => rfl
    have hsets := htable.stagedSets hc ho e
    have hpool : 64 - t.poolUsed = ((s.taking p (.stageGroup p group raw)).updateSet c.id
        (ChangeSet.withEdits (placeEdit e))).poolFree := by
      rw [hframe]; rfl
    refine ⟨t, ?_, ?_, hserved⟩
    · rw [hpool]; exact hans
    · rw [← hsets]; exact hframe

/-! ### UNSTAGE and ABANDON -/

/-- The edit of an item leaves a list that edits no item twice (R56). -/
theorem unstaged_length {es : List Edit} (hn : (es.map Edit.item).Nodup) {i : Item} (hi : ∃ e ∈ es, e.item = i) :
    (es.filter fun e => decide (e.item ≠ i)).length = es.length - 1 := by
  have hone : es.countP (fun e => decide (e.item = i)) = 1 := by
    have hcount := List.count_eq_one_of_mem hn (List.mem_map.mpr hi)
    rwa [List.count, List.countP_map] at hcount
  have hsplit := es.length_eq_countP_add_countP fun e => decide (e.item = i)
  rw [hone] at hsplit
  rw [← List.countP_eq_length_filter, hsplit]
  simp

theorem ChangeSet.hasEdit_iff {c : ChangeSet} {i : Item} : c.hasEdit i = true ↔ ∃ e ∈ c.edits, e.item = i := by
  simp [ChangeSet.hasEdit]

/-- Settles O30: one edit leaves the OPEN set, or the set leaves the table. -/
theorem unstageAndAbandonFreeEdits : Obligations.UnstageAndAbandonFreeEdits := by
  intro p item s hcan htable
  refine ⟨fun hbad => refuses_of hcan rfl (by simp [unstageBody, itemArg_eq_none hbad]), fun hnone =>
    ⟨fun hitem => refuses_of hcan rfl ?_, refuses_of hcan rfl ?_⟩, fun c hc hp ho => ?_⟩
  · obtain ⟨i, hi⟩ := itemArg_of_le hitem
    simp [unstageBody, hi, State.openSetOf_eq_none hnone]
  · simp [abandonBody, State.openSetOf_eq_none hnone]
  have hopen := htable.openSetOf_eq_some hc hp ho
  refine ⟨?_, fun i hi => ?_⟩
  · obtain ⟨t, hans, hframe, hserved⟩ := answers_of_accept hcan rfl (c := .abandon p) (body := abandonBody p)
      (u := (s.taking p _).removeSet c.id) (by simp [abandonBody, hopen]; rfl) fun _ => rfl
    exact ⟨t, hans, by rw [← htable.removeSet_eq hc]; exact hframe, hserved⟩
  replace hi := itemArg_of_num hi
  refine ⟨fun hno => refuses_of hcan rfl (by simp [unstageBody, hi, hopen, hno]), fun hhas => ?_⟩
  intro rest
  obtain ⟨t, hans, hframe, hserved⟩ := answers_of_accept hcan rfl (c := .unstage p item) (body := unstageBody p item)
    (u := (s.taking p _).updateSet c.id (ChangeSet.withEdits fun es => es.filter fun e => decide (e.item ≠ i)))
    (by simp only [unstageBody, hi, State.taking_openSetOf, hopen, hhas, Bool.not_true, Bool.false_eq_true, if_false]; rfl)
    fun _ => rfl
  have hlength := unstaged_length (htable.single c hc) (ChangeSet.hasEdit_iff.mp hhas)
  refine ⟨t, ?_, ?_, hserved⟩
  · rw [← hlength]; exact hans
  · rw [← htable.withEdits_sets hc ho]; exact hframe

/-! ### ACK SET and WITHDRAW -/

theorem ChangeSet.stateCode_eq (c : ChangeSet) : c.stateCode = stateByte c := by
  obtain ⟨i, o, g, b⟩ := c
  cases b <;> rfl

/-- Settles O31: a set of the port in the state that the command asks for leaves the table. -/
theorem ackAndWithdrawRemoveSets : Obligations.AckAndWithdrawRemoveSets := by
  intro p setId s hcan htable
  refine ⟨fun hnone => ⟨refuses_of hcan rfl ?_, refuses_of hcan rfl ?_⟩, fun c hc hid hp => ?_⟩
  · simp [ackSetBody, State.ownSet_eq_none hnone]
  · simp [withdrawBody, State.ownSet_eq_none hnone]
  have hown := htable.ownSet_eq_some hc hp
  rw [hid] at hown
  refine ⟨fun hdone => refuses_of hcan rfl ?_, fun hpend => refuses_of hcan rfl ?_, fun hdone => ?_, fun hpend => ?_⟩
  · simp [ackSetBody, hown, hdone, ChangeSet.stateCode_eq]
  · simp [withdrawBody, hown, hpend, ChangeSet.statusBytes_eq]
  · obtain ⟨t, hans, hframe, hserved⟩ := answers_of_accept hcan rfl (c := .ackSet p setId) (body := ackSetBody p setId)
      (u := (s.taking p _).removeSet c.id) (by simp [ackSetBody, hown, hdone]; rfl) fun _ => rfl
    exact ⟨t, by rw [← ChangeSet.outcome_eq]; exact hans, by rw [← htable.removeSet_eq hc]; exact hframe, hserved⟩
  · obtain ⟨t, hans, hframe, hserved⟩ := answers_of_accept hcan rfl (c := .withdraw p setId)
      (body := withdrawBody p setId) (u := (s.taking p _).removeSet c.id)
      (data := [setId, byteOf (groupNum c.group)] ++ frameBytes c.target)
      (by simp [withdrawBody, hown, hpend, hid, be32_eq, groupCode]) fun _ => rfl
    exact ⟨t, hans, by rw [← htable.removeSet_eq hc]; exact hframe, hserved⟩

/-! ### READ LEASES and SET STATUS -/

/-- Settles O58: the lease table and the status of a set, byte by byte. -/
theorem readLeasesAndSetStatus : Obligations.ReadLeasesAndSetStatus := by
  intro p setId s hcan
  refine ⟨?_, fun hnone => refuses_of hcan rfl (by simp [setStatusBody, State.ownSet_eq_none hnone]),
    fun c hc htable hid hp => ?_⟩
  · intro leg group
    have hleg (l : Leg) : [holderCode (s.leg l).holder, (s.leg l).fallback.code] = leg l := by
      cases hf : (s.leg l).fallback <;> simp [leg, hf, holderCode_eq, LegFallback.code]
    have hgroup (g : Group) : [holderCode (s.group g).holder, (s.group g).fallback.code] = group g := by
      cases hf : (s.group g).fallback <;> simp [group, hf, holderCode_eq, GroupFallback.code]
    obtain ⟨t, hans, ht⟩ := answers_of_same (c := .readLeases p) (body := readLeasesBody) hcan rfl rfl
    refine ⟨t, ?_, ht⟩
    simp only [← hleg, ← hgroup]
    exact hans
  · have hown := htable.ownSet_eq_some hc hp
    rw [hid] at hown
    rw [← ChangeSet.statusBytes_eq]
    exact answers_of_same (c := .setStatus p setId) (body := setStatusBody p setId)
      (resp := { result := .ok, data := c.statusBytes }) hcan rfl (by simp [setStatusBody, hown, accept])

/-! ### READ EVENT -/

/-- What the completion of a READ EVENT that returned the head record leaves (R130, R132). -/
theorem State.completeRead_of_head {s : State} {p : Port} {resp : Response} {e : Event} {rest : List Event}
    (htxn : (s.port p).txn = .response resp .readHead) (hqueue : (s.port p).queue = e :: rest) :
    s.completeRead p = { s.modPort p fun q => { q with queue := rest, txn := .response resp .completed } with
      sets := s.sets.filter fun c =>
        !(e.isSetRecord && decide (c.id = e.setId) && decide (c.owner = p) && c.isDone) } := by
  have htail : (s.modPort p fun q => { q with queue := q.queue.tail, txn := .response resp .completed }) =
      s.modPort p fun q => { q with queue := rest, txn := .response resp .completed } := by
    refine congrArg (fun ports => { s with ports := ports }) (PerPort.ext_get fun k => ?_)
    by_cases h : k = p
    · subst h; simp [hqueue]
    · simp [h]
  simp only [State.completeRead, htxn, hqueue, List.head?_cons, htail, State.freeReported]
  cases e.isSetRecord with
  | false => simp; rfl
  | true => simp

theorem State.completeRead_of_empty {s : State} {p : Port} {resp : Response} {discarded : Bool}
    (htxn : (s.port p).txn = .response resp (.readEmpty discarded)) :
    s.completeRead p =
      s.modPort p fun q => { q with overrun := discarded && q.overrun, txn := .response resp .completed } := by
  simp only [State.completeRead, htxn]

/-- Settles O19: the answer changes nothing, and the completion removes the head or clears the marker. -/
theorem readEventReturnsThenRemoves : Obligations.ReadEventReturnsThenRemoves := by
  intro p resp s
  refine ⟨fun hcan => ⟨fun e rest hqueue => ?_, fun hqueue => ?_⟩, fun hop => ⟨fun e rest htxn hqueue => ?_,
    fun discarded htxn => ?_⟩⟩
  · rw [← Event.bytes_eq]
    refine answers_of_same (c := .readEvent p) (body := readEventBody p) (resp := { result := .ok, data := _ }) hcan rfl ?_
    simp [readEventBody, State.taking_queue, State.taking_overrun, hqueue, flagCode]
  · refine answers_of_same (c := .readEvent p) (body := readEventBody p)
      (resp := { result := .queueEmpty, data := _ }) hcan rfl ?_
    simp [readEventBody, State.taking_queue, State.taking_overrun, hqueue, flagCode]
  · refine ⟨_, inOperation_of_operating (fun u => u.completeRead p) hop, ?_⟩
    rw [State.completeRead_of_head htxn hqueue]
    refine ⟨fun q hq => ?_, ?_, rfl, rfl⟩
    · show (s.modPort p _).port q = _
      simp [hq]
    · show (s.modPort p _).port p = _
      simp
  · refine ⟨_, inOperation_of_operating (fun u => u.completeRead p) hop, ?_⟩
    rw [State.completeRead_of_empty htxn]
    refine ⟨rfl, fun q hq => by simp [hq], ?_⟩
    cases discarded <;> simp

end Sys2Proof.Machine
end

section
/-! PROOFS. The resets of a port and a liveness expiry: leases lost with their fallbacks, sets removed or cancelled, and
the records of each. -/

set_option Elab.async false

namespace Sys2Proof.Machine

/-- A command that its owner accepts, whatever the owner does to the ports: the answer adds the transaction of `p`. -/
theorem answers_of_effect {s u : State} {p : Port} {c : Instr} {body : State → Reply} {data : List Byte}
    (h : CanTake s p) (hc : exec c s = serve p c body s) (hb : body (s.taking p c) = accept u data) :
    ∃ t, Answers c p s t .ok data .none ∧ t = { u with ports := t.ports } ∧ (∀ q, q ≠ p → t.port q = u.port q) ∧
      t.port p = { u.port p with txn := (t.port p).txn } := by
  refine ⟨(accept u data).answer p, ⟨hc.trans (hb ▸ serve_of_canTake h c body), answered_answer _ p⟩,
    Reply.answer_frame _ p, fun q hq => ?_, ?_⟩
  · rw [Reply.answer_port, if_neg hq, accept]
  · rw [Reply.answer_port, if_pos rfl, accept]

/-! ### PORT RESET and DEVICE RESET -/

/-- Records for the supervisor go to no other port. -/
theorem toSupervisor_of_ne {s : State} {p q : Port} (h : s.supervisor ≠ some q) (es : List Event) :
    toSupervisor s p es q = [] := if_neg fun hk => h hk.1

/-- A port's own loss is not told to itself (R105, R136). -/
theorem toSupervisor_self (s : State) (p : Port) (es : List Event) : toSupervisor s p es p = [] :=
  if_neg fun hk => hk.2 rfl

/-- Settles O16: the two resets wait for the release, and the reset of another port is the whole effect of R155. -/
theorem resetCommandsAreTaken : Obligations.ResetCommandsAreTaken := by
  intro p q named s hcan hnamed
  replace hnamed := portArg_eq_some.mpr hnamed
  refine ⟨fun hsup => ?_, fun hsup => refuses_of hcan rfl ?_, fun bad hbad => refuses_of hcan rfl ?_, fun hq => ?_,
    fun hq hsup => refuses_of hcan rfl ?_, fun hq hsup => ?_⟩
  · exact answers_of_same (c := .deviceReset p) (body := deviceResetBody p) hcan rfl
      (if_pos (State.isSupervisor_iff.mpr hsup))
  · exact if_neg (mt State.isSupervisor_iff.mp hsup)
  · rw [portResetBody, portArg_eq_none.mpr hbad]
  · exact answers_of_same (c := .portReset p named) (body := portResetBody p named) hcan rfl
      (by rw [portResetBody, hnamed]; exact if_pos hq)
  · rw [portResetBody, hnamed]
    exact (if_neg hq).trans (if_neg (mt State.isSupervisor_iff.mp hsup))
  · have hbody : portResetBody p named (s.taking p (.portReset p named)) =
        accept ((s.taking p (.portReset p named)).resetPort q true) [named] := by
      rw [portResetBody, hnamed]
      exact (if_neg hq).trans (if_pos (State.isSupervisor_iff.mpr hsup))
    obtain ⟨t, hans, hframe, hother, hown⟩ := answers_of_effect hcan rfl (c := .portReset p named) hbody
    refine ⟨t, hans, ?_, fun l => ?_, fun g => ?_, ?_, fun k hkp hkq => ?_, ?_, ?_⟩
    · rw [hframe]; exact State.resetPort_sets _ q true
    · rw [hframe]; exact State.resetPort_leg _ q true l
    · rw [hframe]; exact State.resetPort_group _ q true g
    · rw [hframe, State.resetPort_frame]; rfl
    · have hk : (s.taking p (.portReset p named)).supervisor ≠ some k := fun h => hkp (by simpa [hsup] using h.symm)
      rw [hother k hkp, State.resetPort_port, toSupervisor_of_ne hk, if_neg hkq, State.taking_port, if_neg hkp,
        PortState.afterRecords_nil]
    · have hp : toSupervisor (s.taking p (.portReset p named)) q [.portReset q true] p = [.portReset q true] :=
        if_pos ⟨hsup, hq.symm⟩
      rw [hown, State.resetPort_port, hp, if_neg hq.symm, State.taking_port, if_pos rfl]
      rfl
    · rw [hother q hq, State.resetPort_port, toSupervisor_self, if_pos rfl, State.taking_port, if_neg hq,
        PortState.afterRecords_nil]
      rfl

theorem State.releaseSelect_portReset {s : State} {p : Port} {resp : Response} (hop : s.condition = .operating)
    (htxn : (s.port p).txn = .response resp .portReset) (whole : Bool) :
    s.releaseSelect p whole =
      ((s.modPort p PortState.release).resetPort p false).endTxn p resp.result (prevOf whole) := by
  simp [State.releaseSelect, State.operating, hop, htxn]

/-- Settles O17: the effect of R155 on the issuing port, and the transaction recorded behind it. -/
theorem selfResetTakesEffect : Obligations.SelfResetTakesEffect := by
  intro p whole resp s hop htxn
  refine ⟨s.releaseSelect p whole, rfl, ?_⟩
  rw [State.releaseSelect_portReset hop htxn]
  refine ⟨State.resetPort_sets _ p false, State.resetPort_leg _ p false, State.resetPort_group _ p false,
    ?_, fun q hq => ?_, ?_⟩
  · rw [State.resetPort_frame]
    rfl
  · simp only [State.endTxn, State.modPort_port, State.resetPort_port, if_neg hq]
    rfl
  · simp only [State.endTxn, State.modPort_port, State.resetPort_port, if_true, toSupervisor_self,
      PortState.afterRecords_nil]
    rfl

/-! ### A liveness expiry -/

/-- The removal of OPEN sets takes no PENDING set away. -/
theorem cancelRecords_of_opened_removed {s t : State} {p : Port}
    (h : t.sets = s.sets.filter fun c => !(decide (c.owner = p) && c.isOpen)) (pick : ChangeSet → Bool)
    (why : CancelReason) (q : Port) : cancelRecords t pick why q = cancelRecords s pick why q := by
  rw [cancelRecords, h, List.filter_filter]
  refine congrArg _ (List.filter_congr fun c _ => ?_)
  obtain ⟨i, o, g, b⟩ := c
  cases b <;> simp [ChangeSet.isPending, ChangeSet.isOpen]

theorem cancelRecords_of_not_owner {s : State} {p q : Port} (h : q ≠ p) (why : CancelReason) :
    cancelRecords s (fun c => decide (c.owner = p)) why q = [] := by
  rw [cancelRecords, List.map_eq_nil_iff, List.filter_eq_nil_iff]
  intro c _ hpick
  simp only [Bool.and_eq_true, decide_eq_true_eq] at hpick
  exact h (hpick.2.symm.trans hpick.1.2)

/-- A port after the expiry of the timer of `p`: the records of its cancelled sets and lost items, or, at a supervisor, of
the items alone (R63, R104, R105). -/
theorem State.expire_port (s : State) (p q : Port) :
    (s.expire p).port q =
      let lost := (itemsOf s p).map fun i => Event.leaseLost i .timeout
      if q = p then
        { (s.port p).afterRecords (cancelRecords s (fun c => decide (c.owner = p)) .leaseLost p ++ lost) with timer := none }
      else (s.port q).afterRecords (toSupervisor s p lost q) := by
  unfold State.expire
  simp only [State.modPort_port, State.raiseToSupervisor_port, State.raiseList_port, State.applyFallbacks_port,
    State.cancelSets_port, PortState.afterRecords_append]
  rw [cancelRecords_of_opened_removed (s := s) rfl]
  split
  · next hq =>
    subst hq
    rw [toSupervisor_self, List.append_nil]
    rfl
  · next hq =>
    rw [cancelRecords_of_not_owner hq, List.nil_append, List.nil_append]
    unfold toSupervisor
    simp only [State.raiseList_supervisor, State.applyFallbacks_supervisor, State.cancelSets_supervisor]
    rfl

/-- Settles O26: an expiry at 0, and a timer that was restarted or stopped first. -/
theorem expiryFreesEverything : Obligations.ExpiryFreesEverything := by
  intro p s hop
  refine ⟨fun htimer => (inOperation_of_operating _ hop).trans (congrArg _ (if_neg htimer)), fun htimer =>
    ⟨s.expire p, (inOperation_of_operating _ hop).trans (congrArg _ (if_pos htimer)), s.expire_leg p, s.expire_group p,
      s.expire_sets p, s.expire_frame p, ?_, fun q hq => ?_⟩⟩
  · rw [State.expire_port, if_pos rfl]
  · rw [State.expire_port, if_neg hq]

end Sys2Proof.Machine
end

section
/-! PROOFS. SEIZE: the supervisor takes leases, the former holders' sets are trimmed or cancelled, and each of them is told. -/

set_option Elab.async false

namespace Sys2Proof.Machine

/-! ### The sets of the former holders -/

/-- A set after SEIZE, by its state (R64). -/
theorem State.seizedAs_eq (s : State) (p : Port) (mask : Byte) (c : ChangeSet) : s.seizedAs p mask c =
    match c.body with
    | .opened es => { c with body := .opened (es.filter fun e => !s.takenFrom p mask c.owner e.item) }
    | .pending _ _ _ => if s.seizureHits p mask c then cancelledAs .seized c else c
    | .done _ _ => c := by
  obtain ⟨i, o, g, b⟩ := c
  cases b with
  | opened es => exact ite_self _
  | pending es target seq => rfl
  | done target outcome => exact ite_self _

/-- Trimming leaves a PENDING set as it is, and makes none PENDING. -/
theorem State.trimmed_isPending (s : State) (p : Port) (mask : Byte) (c : ChangeSet) :
    (s.trimmed p mask c).isPending = c.isPending ∧ (c.isPending = true → s.trimmed p mask c = c) := by
  obtain ⟨i, o, g, b⟩ := c
  cases b with
  | opened es => exact ⟨rfl, nofun⟩
  | pending es target seq => exact ⟨rfl, fun _ => rfl⟩
  | done target outcome => exact ⟨rfl, nofun⟩

/-- The sets cancelled in the trimmed table are those of the table before. -/
theorem cancelRecords_of_trimmed {s t : State} {p : Port} {mask : Byte} (h : t.sets = s.sets.map (s.trimmed p mask))
    (pick : ChangeSet → Bool) (why : CancelReason) (q : Port) :
    cancelRecords t pick why q = cancelRecords s pick why q := by
  have hfilter : (s.sets.filter fun c => (s.trimmed p mask c).isPending && pick (s.trimmed p mask c) &&
      decide ((s.trimmed p mask c).owner = q)) =
      s.sets.filter fun c => c.isPending && pick c && decide (c.owner = q) := by
    refine List.filter_congr fun c _ => ?_
    obtain ⟨hpending, hsame⟩ := s.trimmed_isPending p mask c
    cases hc : c.isPending with
    | true => rw [hsame hc, hc]
    | false => rw [hpending, hc]; simp
  rw [cancelRecords, h, List.filter_map, List.map_map]
  refine (congrArg _ hfilter).trans (List.map_congr_left fun c hc => ?_)
  simp only [List.mem_filter, Bool.and_eq_true] at hc
  rw [Function.comp_apply, (s.trimmed_isPending p mask c).2 hc.2.1.1]

theorem State.seizeItems_port (s : State) (p : Port) (mask : Byte) (q : Port) :
    (s.seizeItems p mask).port q = (s.port q).afterRecords (cancelRecords s (s.seizureHits p mask) .seized q) := by
  rw [State.seizeItems, State.cancelSets_port, cancelRecords_of_trimmed (s := s) (p := p) (mask := mask) rfl]
  rfl

/-! ### The LEASE_LOST records -/

/-- Nothing is taken from the port that seizes. -/
theorem State.takenFrom_self (s : State) (p : Port) (mask : Byte) (i : Item) : s.takenFrom p mask p i = false := by
  simp [State.takenFrom]

/-- Each former holder is told its items, in ascending order (R96). -/
theorem State.raiseSeized_port (t s : State) (p : Port) (mask : Byte) (q : Port) :
    (t.raiseSeized s p mask).port q =
      (t.port q).afterRecords ((allItems.filter (s.takenFrom p mask q)).map fun i => .leaseLost i .seized) := by
  unfold State.raiseSeized
  generalize allItems = is
  induction is generalizing t with
  | nil => exact (PortState.afterRecords_nil _).symm
  | cons i is ih =>
    have hfrom (k : Port) (h : s.takenFrom p mask k i = true) : s.holder i = some k := by
      simp only [State.takenFrom, Bool.and_eq_true] at h
      exact State.holds_iff.mp h.1.2
    rw [List.foldl_cons, ih, List.filter_cons]
    cases hq : s.takenFrom p mask q i with
    | true => simp [hfrom q hq, hq, PortState.afterRecords_append]
    | false =>
      rw [if_neg Bool.false_ne_true]
      refine congrArg (PortState.afterRecords · _) ?_
      split
      · next k _ =>
        split
        · next hk =>
          have hne : ¬q = k := fun h => by rw [h, hk] at hq; cases hq
          rw [State.raise_port, if_neg hne, PortState.afterRecords_nil]
        · rfl
      · rfl

/-! ### The timers -/

/-- The timers of the named ports that hold nothing stop, and no other changes (R101). -/
theorem State.stopTimers_port (ps : List Port) (s : State) (q : Port) :
    (ps.foldl State.stopTimerIfIdle s).port q =
      if q ∈ ps ∧ s.holdsAny q = false then { s.port q with timer := none } else s.port q := by
  induction ps generalizing s with
  | nil => simp
  | cons p ps ih =>
    have hholds : (s.stopTimerIfIdle p).holdsAny q = s.holdsAny q := by
      rw [State.stopTimerIfIdle_frame]; rfl
    rw [List.foldl_cons, ih, hholds, State.stopTimerIfIdle_port]
    by_cases hidle : s.holdsAny q = false
    · by_cases hq : q = p
      · subst hq; simp [hidle]
      · simp [hq, hidle]
    · have hp : ¬(q = p ∧ s.holdsAny p = false) := fun h => hidle (h.1 ▸ h.2)
      rw [if_neg hp, if_neg fun h => hidle h.2, if_neg fun h => hidle h.2]

/-- A timer that is restarted with the transaction and started with the first lease runs from its timeout (R101, R102). -/
theorem PortState.started_eq (q : PortState) :
    (if q.timeout ≠ 0 ∧ q.restarted = none then some q.timeout else q.restarted) =
      if q.timeout = 0 then q.restarted else some q.timeout := by
  cases h : q.timer <;> by_cases h0 : q.timeout = 0 <;> simp [PortState.restarted, h, h0]

/-! ### The whole effect -/

/-- The state that SEIZE leaves behind the answer (R64, R96, R101). -/
def State.seized (s : State) (p : Port) (mask : Byte) : State :=
  (allPorts.filter fun q => decide (q ≠ p)).foldl State.stopTimerIfIdle
    (((s.seizeItems p mask).raiseSeized s p mask).startTimer p)

theorem seizeBody_eq_accept {s : State} {p : Port} {mask : Byte} (hsup : s.isSupervisor p = true) (hmask : mask ≠ 0) :
    seizeBody p mask s = accept (s.seized p mask) ((allItems.map fun i => holderCode (s.holder i)) ++
      [byteOf (s.sets.countP fun c => c.isPending && s.seizureHits p mask c)]) := by
  rw [seizeBody, hsup, Bool.not_true, if_neg Bool.false_ne_true, if_neg hmask]
  rfl

section seized
variable (s : State) (p : Port) (mask : Byte)

theorem State.seized_ports : s.seized p mask = { s.seizeItems p mask with ports := (s.seized p mask).ports } := by
  rw [State.seized, State.stopTimers_frame, State.startTimer_frame, State.raiseSeized_frame]

theorem State.seized_holder (i : Item) :
    (s.seized p mask).holder i = if inMask mask i = true then some p else s.holder i := by
  rw [State.seized_ports, ← State.seizeItems_holder p s mask i]
  cases i <;> rfl

theorem State.seized_sets : (s.seized p mask).sets = s.sets.map (s.seizedAs p mask) := by
  rw [State.seized_ports]
  exact State.seizeItems_sets p s mask

theorem State.seized_frame :
    s.seized p mask = { s with
      ports := (s.seized p mask).ports
      legs := s.legs.map fun l v => { v with holder := (s.seized p mask).holder (.leg l) }
      groups := s.groups.map fun g v => { v with holder := (s.seized p mask).holder (.group g) }
      sets := (s.seized p mask).sets } := by
  have h := (s.seized_ports p mask).trans
    (congrArg (fun u : State => { u with ports := (s.seized p mask).ports }) (State.seizeItems_frame p s mask))
  simp only [State.seizeItems_holder, State.seizeItems_sets] at h
  simpa only [State.seized_holder, State.seized_sets] using h

/-- A mask that is not 0 names an item. -/
theorem exists_inMask : ∀ mask : Byte, mask ≠ 0 → ∃ i ∈ allItems, inMask mask i = true := by decide

/-- No set of the port that seizes is hit. -/
theorem State.cancelRecords_seizing : cancelRecords s (s.seizureHits p mask) .seized p = [] := by
  rw [cancelRecords, List.map_eq_nil_iff, List.filter_eq_nil_iff]
  intro c _ hpick
  simp only [Bool.and_eq_true, decide_eq_true_eq] at hpick
  obtain ⟨⟨-, hhit⟩, rfl⟩ := hpick
  obtain ⟨e, -, he⟩ := List.any_eq_true.mp hhit
  rw [State.takenFrom_self] at he
  cases he

/-- A port after the records of SEIZE, before the timers. -/
theorem State.seizedTold_port (q : Port) : ((s.seizeItems p mask).raiseSeized s p mask).port q =
    (s.port q).afterRecords (cancelRecords s (s.seizureHits p mask) .seized q ++
      (allItems.filter (s.takenFrom p mask q)).map fun i => .leaseLost i .seized) := by
  rw [State.raiseSeized_port, State.seizeItems_port, PortState.afterRecords_append]

/-- The port that seizes is told nothing. -/
theorem State.seizedTold_port_self : ((s.seizeItems p mask).raiseSeized s p mask).port p = s.port p := by
  have hlost : allItems.filter (s.takenFrom p mask p) = [] :=
    List.filter_eq_nil_iff.mpr fun i _ => by rw [State.takenFrom_self]; exact Bool.false_ne_true
  rw [State.seizedTold_port, State.cancelRecords_seizing, hlost]
  exact PortState.afterRecords_nil _

/-- The records and the timers leave the leases as they are. -/
theorem State.seized_holdsAny (q : Port) :
    (s.seized p mask).holdsAny q = (((s.seizeItems p mask).raiseSeized s p mask).startTimer p).holdsAny q ∧
      (s.seized p mask).holdsAny q = ((s.seizeItems p mask).raiseSeized s p mask).holdsAny q := by
  rw [State.seized_ports, State.startTimer_frame, State.raiseSeized_frame]
  exact ⟨rfl, rfl⟩

/-- The timer of the port that seizes runs with its new leases (R101). -/
theorem State.seized_port_self (hmask : mask ≠ 0) : (s.seized p mask).port p =
    { s.port p with timer :=
        if (s.port p).timeout ≠ 0 ∧ (s.port p).timer = none then some (s.port p).timeout else (s.port p).timer } := by
  have hholds : ((s.seizeItems p mask).raiseSeized s p mask).holdsAny p = true := by
    obtain ⟨i, -, hi⟩ := exists_inMask mask hmask
    rw [← (s.seized_holdsAny p mask p).2, State.holdsAny_iff]
    exact ⟨i, by rw [State.seized_holder, if_pos hi]⟩
  have hkept : ¬(p ∈ (allPorts.filter fun q => decide (q ≠ p)) ∧
      (((s.seizeItems p mask).raiseSeized s p mask).startTimer p).holdsAny p = false) := by simp
  rw [State.seized, State.stopTimers_port, if_neg hkept, State.startTimer_port, State.seizedTold_port_self, hholds]
  simp only [true_and]
  split <;> rfl

/-- Another port is told its cancelled sets and its lost items, and its timer stops where it holds nothing more. -/
theorem State.seized_port_other {q : Port} (hq : q ≠ p) : (s.seized p mask).port q =
    { (s.port q).afterRecords (cancelRecords s (s.seizureHits p mask) .seized q ++
        (allItems.filter (s.takenFrom p mask q)).map fun i => .leaseLost i .seized) with
      timer := if (s.seized p mask).holdsAny q = true then (s.port q).timer else none } := by
  have hmem : q ∈ allPorts.filter fun k => decide (k ≠ p) :=
    List.mem_filter.mpr ⟨by cases q <;> decide, decide_eq_true hq⟩
  have hport : (((s.seizeItems p mask).raiseSeized s p mask).startTimer p).port q = _ := State.startTimer_port _ p q
  rw [if_neg fun h => hq h.1, State.seizedTold_port] at hport
  rw [(s.seized_holdsAny p mask q).1, State.seized, State.stopTimers_port, hport]
  cases (((s.seizeItems p mask).raiseSeized s p mask).startTimer p).holdsAny q with
  | true => rw [if_neg (by simp), if_pos rfl]; rfl
  | false => rw [if_pos ⟨hmem, rfl⟩, if_neg Bool.false_ne_true]

end seized

/-- Settles O23: the refusals, and the whole effect of SEIZE. -/
theorem seizeTakesTheItems : Obligations.SeizeTakesTheItems := by
  intro p mask s hcan
  have hbody := seizeBody_eq_accept (s := s.taking p (.seize p mask)) (p := p) (mask := mask)
  refine ⟨fun hsup => refuses_of hcan rfl (if_pos ?_), fun hsup hmask => refuses_of hcan rfl ?_, ?_⟩
  · simpa using mt State.isSupervisor_iff.mp hsup
  · rw [seizeBody, if_pos hmask]
    exact if_neg (by simpa using State.isSupervisor_iff.mpr hsup)
  intro hsup hmask taken hit
  have htaken : (s.taking p (.seize p mask)).takenFrom p mask = taken := by
    funext q i
    rw [State.takenFrom, State.taking_holds, Bool.and_right_comm]
    rfl
  have hhit : (s.taking p (.seize p mask)).seizureHits p mask = hit := by
    funext c
    simp only [State.seizureHits, htaken, hit]
  replace hbody := hbody (State.isSupervisor_iff.mpr hsup) hmask
  obtain ⟨t, hans, hframe, hother, hown⟩ := answers_of_effect hcan rfl (c := .seize p mask) hbody
  have hholder (i : Item) : t.holder i = ((s.taking p (.seize p mask)).seized p mask).holder i := by
    rw [hframe]; cases i <;> rfl
  refine ⟨t, ?_, fun i => ?_, ?_, ?_, ?_, fun q hq => ?_⟩
  · simpa only [holderCode_eq, State.taking_holder, hhit, State.taking_sets] using hans
  · rw [hholder, State.seized_holder, State.taking_holder]
  · rw [hframe, State.seized_sets]
    refine List.map_congr_left fun c _ => ?_
    have hseized := State.seizedAs_eq (s.taking p (.seize p mask)) p mask c
    rw [htaken, hhit] at hseized
    exact hseized
  · have hsets : t.sets = ((s.taking p (.seize p mask)).seized p mask).sets := by rw [hframe]
    have hseized := State.seized_frame (s.taking p (.seize p mask)) p mask
    simp only [← hholder, ← hsets] at hseized
    exact hframe.trans (congrArg (fun u : State => { u with ports := t.ports }) hseized)
  · rw [hown, State.seized_port_self _ _ _ hmask, State.taking_port, if_pos rfl]
    dsimp only
    rw [PortState.started_eq]
  · have hholds : ((s.taking p (.seize p mask)).seized p mask).holdsAny q = t.holdsAny q := by rw [hframe]; rfl
    rw [hother q hq, State.seized_port_other _ _ _ hq, htaken, hhit, State.taking_port, if_neg hq, hholds]
    rfl

end Sys2Proof.Machine
end

section
/-! PROOFS. The commit queues: their sets, their targets and the groups they belong to.

The laws of R72, R77, R88 and R111 read the PENDING sets (`State.sealed`) and three things of each group
(`State.commitView`). Most operations drop PENDING sets at most and leave the view; a frame start, a trip, a cleared trip, a
seal and a reset keep the laws each for its own reason. `KeepsQueues` says so of every step. -/

set_option Elab.async false

namespace Sys2Proof.Machine

/-! ### What the laws of the commit queues read -/

/-- The PENDING sets of both groups, in seal order (R69). -/
def State.sealed (s : State) : List ChangeSet := s.sets.filter ChangeSet.isPending

/-- What the laws of the commit queues read of a group. -/
structure CommitView where
  fn : Frame
  tripped : Bool
  causes : CauseSet

/-- FN, whether the group is TRIPPED, and its cause set (R25, R111). -/
def GroupState.commitView (v : GroupState) : CommitView :=
  { fn := v.fn, tripped := decide (v.run = .tripped), causes := v.causes }

/-- What the laws of the commit queues read of each group. -/
def State.commitView (s : State) (g : Group) : CommitView := (s.group g).commitView

theorem State.mem_sealed {s : State} {c : ChangeSet} : c ∈ s.sealed ↔ c ∈ s.sets ∧ c.isPending = true :=
  List.mem_filter

theorem pendingItemLaw_iff {s : State} : PendingItemLaw s ↔
    s.sealed.Pairwise fun a b => ∀ i, ¬(a.hasEdit i = true ∧ b.hasEdit i = true) := List.pairwise_filter.symm

theorem distanceLaw_iff {s : State} : DistanceLaw s ↔ ∀ c ∈ s.sealed,
    1 ≤ (c.target - (s.commitView c.group).fn).toNat ∧ (c.target - (s.commitView c.group).fn).toNat ≤ 65535 := by
  simp only [State.mem_sealed, and_imp]
  rfl

theorem trippedLaw_iff {s : State} : TrippedLaw s ↔ ∀ c ∈ s.sealed, (s.commitView c.group).tripped = false := by
  simp [TrippedLaw, State.mem_sealed, State.commitView, GroupState.commitView]

theorem causeLaw_iff {s : State} : CauseLaw s ↔
    ∀ g, (s.commitView g).tripped = true ↔ (s.commitView g).causes ≠ CauseSet.empty := by
  simp [CauseLaw, State.commitView, GroupState.commitView]

/-- A PENDING set that stays PENDING is the same set. -/
theorem ChangeSet.Becomes.eq_of_pending {c d : ChangeSet} (h : c.Becomes d) (hd : d.isPending = true) : d = c := by
  cases h with
  | same => rfl
  | loses _ _ => exact nomatch hd
  | ends _ _ => exact nomatch hd

/-- Of a list rewritten in place, where what is PENDING was not changed, the PENDING sets were there before, in the same
order. -/
theorem pending_map_sublist {f : ChangeSet → ChangeSet} (hf : ∀ c, (f c).isPending = true → f c = c)
    (cs : List ChangeSet) : ((cs.map f).filter ChangeSet.isPending).Sublist (cs.filter ChangeSet.isPending) := by
  have hsame : (cs.filter (ChangeSet.isPending ∘ f)).map f = cs.filter (ChangeSet.isPending ∘ f) :=
    (List.map_congr_left (g := id) fun c hc => hf c (List.mem_filter.mp hc).2).trans (List.map_id _)
  rw [List.filter_map, hsame]
  exact List.monotone_filter_right _ fun c (hc : (f c).isPending = true) => hf c hc ▸ hc

theorem Trims.sealed_sublist {s t : State} (h : Trims s t) : t.sealed.Sublist s.sealed := by
  obtain ⟨keep, f, hsets, hf⟩ := h.sets
  rw [State.sealed, hsets]
  exact (pending_map_sublist (fun c => (hf c).eq_of_pending) _).trans (List.filter_sublist.filter _)

/-! ### Steps that keep the laws -/

/-- A change of the state that keeps the laws of the commit queues (R72, R77, R88, R111). -/
structure KeepsQueues (s t : State) : Prop where
  items : PendingItemLaw s → PendingItemLaw t
  distance : DistanceLaw s → DistanceLaw t
  tripped : TrippedLaw s → TrippedLaw t
  causes : CauseLaw s → CauseLaw t

namespace KeepsQueues

variable {s t u : State}

/-- PENDING sets leave the queues, no group's FN changes, no group that keeps a PENDING set becomes TRIPPED, and each
cause set is kept or sound. -/
theorem of_sublist (hsub : t.sealed.Sublist s.sealed) (hfn : ∀ g, (t.commitView g).fn = (s.commitView g).fn)
    (htripped : ∀ c ∈ t.sealed, (s.commitView c.group).tripped = false → (t.commitView c.group).tripped = false)
    (hcauses : ∀ g, t.commitView g = s.commitView g ∨
      ((t.commitView g).tripped = true ↔ (t.commitView g).causes ≠ CauseSet.empty)) : KeepsQueues s t where
  items hs := pendingItemLaw_iff.mpr ((pendingItemLaw_iff.mp hs).sublist hsub)
  distance hs := distanceLaw_iff.mpr fun c hc => by
    rw [hfn]
    exact distanceLaw_iff.mp hs c (hsub.subset hc)
  tripped hs := trippedLaw_iff.mpr fun c hc => htripped c hc (trippedLaw_iff.mp hs c (hsub.subset hc))
  causes hs := causeLaw_iff.mpr fun g => by
    rcases hcauses g with h | h
    · rw [h]; exact causeLaw_iff.mp hs g
    · exact h

theorem of_sealed (hsub : t.sealed.Sublist s.sealed) (hview : t.commitView = s.commitView) : KeepsQueues s t :=
  of_sublist hsub (fun g => by rw [hview]) (fun c _ hc => by rwa [hview]) fun g => .inl (by rw [hview])

theorem of_trims (h : Trims s t) (hview : t.commitView = s.commitView) : KeepsQueues s t :=
  of_sealed h.sealed_sublist hview

theorem of_views (htable : t.tableView = s.tableView) (hview : t.commitView = s.commitView) : KeepsQueues s t :=
  of_trims (.of_view htable) hview

theorem refl (s : State) : KeepsQueues s s := of_views rfl rfl

theorem trans (h : KeepsQueues s t) (k : KeepsQueues t u) : KeepsQueues s u :=
  ⟨k.items ∘ h.items, k.distance ∘ h.distance, k.tripped ∘ h.tripped, k.causes ∘ h.causes⟩

theorem modPort (h : KeepsQueues s t) (p : Port) (f : PortState → PortState) : KeepsQueues s (t.modPort p f) :=
  h.trans (of_views rfl rfl)

theorem raiseAll (h : KeepsQueues s t) (e : Event) : KeepsQueues s (t.raiseAll e) := h.trans (of_views rfl rfl)

theorem ite {P : Prop} [Decidable P] (ht : P → KeepsQueues s t) (hu : ¬P → KeepsQueues s u) :
    KeepsQueues s (if P then t else u) := by
  split
  · exact ht ‹_›
  · exact hu ‹_›

end KeepsQueues

/-! ### Operations that leave the view of the groups -/

section view
variable (s : State)

theorem commitView_mapGroups {f : Group → GroupState → GroupState} (hf : ∀ g v, (f g v).commitView = v.commitView) :
    (s.mapGroups f).commitView = s.commitView :=
  funext fun g => by rw [State.commitView, State.mapGroups_group, hf]; rfl

theorem State.commitView_modGroup (g h : Group) (f : GroupState → GroupState) :
    (s.modGroup g f).commitView h = if h = g then (f (s.group h)).commitView else s.commitView h := by
  rw [State.commitView, State.modGroup_group]
  split <;> rfl

theorem commitView_modGroup (g : Group) {f : GroupState → GroupState}
    (hf : (f (s.group g)).commitView = (s.group g).commitView := by rfl) : (s.modGroup g f).commitView = s.commitView := by
  funext h
  rw [State.commitView_modGroup]
  split
  · next hg => rw [hg, hf]; rfl
  · rfl

theorem commitView_setHolders (pick : Item → Bool) (h : Option Port) :
    (s.setHolders pick h).commitView = s.commitView :=
  commitView_mapGroups (s.mapLegs _) fun _ _ => by split <;> rfl

theorem commitView_startTimer (p : Port) : (s.startTimer p).commitView = s.commitView := by
  rw [State.startTimer_frame]; rfl

theorem commitView_stopTimerIfIdle (p : Port) : (s.stopTimerIfIdle p).commitView = s.commitView := by
  rw [State.stopTimerIfIdle_frame]; rfl

theorem commitView_cancelSets (pick : ChangeSet → Bool) (why : CancelReason) :
    (s.cancelSets pick why).commitView = s.commitView := by
  rw [State.cancelSets_frame]; rfl

theorem commitView_lostGroup {s t : State} {p : Port} (h : ∀ g, t.group g = lostGroup p (s.group g)) :
    t.commitView = s.commitView :=
  funext fun g => by
    rw [State.commitView, h, lostGroup]
    split <;> rfl

theorem commitView_enterStopped (g : Group) (why : GroupReason) (h : (s.group g).run ≠ .tripped) :
    (s.enterStopped g why).commitView = s.commitView := by
  funext k
  rw [State.commitView, State.enterStopped_group]
  split
  · next hk => subst hk; simp [State.commitView, GroupState.commitView, h]
  · rfl

theorem commitView_takeDueSet (g : Group) (f : Frame) (c : ChangeSet) :
    (State.takeDueSet g f s c).commitView = s.commitView := by
  unfold State.takeDueSet
  split
  · exact commitView_modGroup _ g (by split <;> rfl)
  · rfl

theorem commitView_commitFrame (g : Group) (f : Frame) : (s.commitFrame g f).commitView = s.commitView := by
  unfold State.commitFrame
  generalize s.dueSets g f = cs
  induction cs generalizing s with
  | nil => rfl
  | cons c cs ih => rw [List.foldl_cons, ih, commitView_takeDueSet]

theorem commitView_completeRead (p : Port) : (s.completeRead p).commitView = s.commitView := by
  unfold State.completeRead State.freeReported
  split
  · dsimp only
    split
    · split <;> rfl
    · rfl
  · rfl
  · rfl

end view

/-! ### A frame start -/

theorem ChangeSet.finish_isPending (o : SetOutcome) (c : ChangeSet) : (c.finish o).isPending = false := by
  obtain ⟨i, p, g, b⟩ := c
  cases b <;> rfl

/-- The sets PENDING behind a due set that is taken are those before, but for that one (R79). -/
theorem State.sealed_takeDueSet {g : Group} {f : Frame} {s : State} {c d : ChangeSet}
    (hd : d ∈ (State.takeDueSet g f s c).sealed) : d ∈ s.sealed ∧ c.id ≠ d.id := by
  obtain ⟨hmem, hpend⟩ := State.mem_sealed.mp hd
  rw [State.takeDueSet_sets] at hmem
  obtain ⟨k, hk, rfl⟩ := List.mem_map.mp hmem
  split at hpend
  · rw [ChangeSet.finish_isPending] at hpend
    exact nomatch hpend
  · next hid =>
    rw [if_neg hid]
    exact ⟨State.mem_sealed.mpr ⟨hk, hpend⟩, fun h => hid h.symm⟩

theorem State.sealed_takeDueSets {g : Group} {f : Frame} {s : State} {cs : List ChangeSet} {d : ChangeSet}
    (hd : d ∈ (cs.foldl (State.takeDueSet g f) s).sealed) : d ∈ s.sealed ∧ ∀ c ∈ cs, c.id ≠ d.id := by
  induction cs generalizing s with
  | nil => exact ⟨hd, nofun⟩
  | cons c cs ih =>
    obtain ⟨hmem, hrest⟩ := ih hd
    obtain ⟨hs, hid⟩ := State.sealed_takeDueSet hmem
    exact ⟨hs, List.forall_mem_cons.mpr ⟨hid, hrest⟩⟩

/-- No set due at the frame is PENDING behind the commit unit's part of its start (R78). -/
theorem State.not_due_of_commitFrame {g : Group} {f : Frame} {s : State} {d : ChangeSet}
    (hd : d ∈ (s.commitFrame g f).sealed) : d ∈ s.sealed ∧ ¬(d.group = g ∧ d.target = f) := by
  obtain ⟨hs, hids⟩ := State.sealed_takeDueSets hd
  obtain ⟨hmem, hpend⟩ := State.mem_sealed.mp hs
  refine ⟨hs, fun ⟨hg, hf⟩ => hids d ?_ rfl⟩
  simp [State.dueSets, State.pendingIn, hmem, hpend, hg, hf]

/-- A frame start advances FN and brings the group to RUNNING (R25, R26). -/
theorem State.commitView_frameStart (s : State) (g h : Group) (first : Bool) : (s.frameStart g first).commitView h =
    if h = g then { fn := (s.commitView g).fn + 1, tripped := false, causes := (s.commitView g).causes }
    else s.commitView h := by
  have hcommit : (s.committed g).commitView = (s.advanceFrame g).commitView := commitView_commitFrame _ _ _
  rw [State.frameStart_eq]
  refine (State.commitView_modGroup (s.committed g) g h _).trans ?_
  have hh := congrFun hcommit h
  rw [State.advanceFrame, State.commitView_modGroup] at hh
  split
  · next hg =>
    subst hg
    rw [if_pos rfl] at hh
    have hfn := congrArg CommitView.fn hh
    have hcauses := congrArg CommitView.causes hh
    exact CommitView.mk.injEq .. ▸ ⟨hfn, rfl, hcauses⟩
  · next hg => rwa [if_neg hg] at hh

/-- A target that lay ahead of FN and is not FN + 1 lies ahead of FN + 1, one frame nearer (R69, R77). -/
theorem distance_advance {target fn : Frame} (hne : target ≠ fn + 1)
    (h : 1 ≤ (target - fn).toNat ∧ (target - fn).toNat ≤ 65535) :
    1 ≤ (target - (fn + 1)).toNat ∧ (target - (fn + 1)).toNat ≤ 65535 := by
  bv_omega

namespace KeepsQueues

variable {s t u : State}

/-- A frame start takes the sets whose target it reaches, and the others come one frame nearer (R25, R78). -/
theorem frameStart (s : State) (g : Group) (first : Bool) (h : (s.group g).run ≠ .tripped) :
    KeepsQueues s (s.frameStart g first) where
  items hs := pendingItemLaw_iff.mpr ((pendingItemLaw_iff.mp hs).sublist (Trims.frameStart s g first).sealed_sublist)
  distance hs := distanceLaw_iff.mpr fun d hd => by
    rw [State.sealed, State.frameStart_sets] at hd
    obtain ⟨hmem, hnot⟩ := State.not_due_of_commitFrame hd
    have hold := distanceLaw_iff.mp hs d hmem
    rw [State.commitView_frameStart]
    split
    · next hg => exact distance_advance (fun ht => hnot ⟨hg, ht⟩) (hg ▸ hold)
    · exact hold
  tripped hs := trippedLaw_iff.mpr fun d hd => by
    rw [State.commitView_frameStart]
    split
    · rfl
    · exact trippedLaw_iff.mp hs d ((Trims.frameStart s g first).sealed_sublist.subset hd)
  causes hs := causeLaw_iff.mpr fun k => by
    have hnone : (s.commitView g).tripped = false := decide_eq_false h
    rw [State.commitView_frameStart]
    split
    · simpa [hnone] using causeLaw_iff.mp hs g
    · exact causeLaw_iff.mp hs k

theorem endFrame (s : State) (g : Group) (h : (s.group g).run ≠ .tripped) : KeepsQueues s (s.endFrame g) := by
  have hcount : KeepsQueues s (s.countFrame g) := of_views (tableView_modGroup s g) (commitView_modGroup s g)
  have hrun : ((s.countFrame g).group g).run ≠ .tripped := by rwa [State.countFrame_group, if_pos rfl]
  have hstop (why : GroupReason) : KeepsQueues s ((s.countFrame g).enterStopped g why) :=
    hcount.trans (of_views (tableView_enterStopped _ g why) (commitView_enterStopped _ g why hrun))
  rw [State.endFrame_eq]
  exact ite (fun _ => hstop _) fun _ => ite (fun _ => hstop _) fun _ => hcount.trans (frameStart _ g _ hrun)

end KeepsQueues

/-! ### Trips -/

theorem CauseSet.add_ne_empty (c : CauseSet) (x : Cause) : c.add x ≠ CauseSet.empty := by
  cases x <;> simp [CauseSet.add, CauseSet.empty]

namespace KeepsQueues

variable {s t u : State}

/-- A cause that reaches a group cancels its PENDING sets as the group becomes TRIPPED, and stands in its cause set behind
that (R88, R116, R117). -/
theorem tripGroup (s : State) (g : Group) (c : Cause) : KeepsQueues s (s.tripGroup g c) := by
  refine of_sublist (Trims.tripGroup s g c).sealed_sublist (fun h => ?_) (fun d hd hopen => ?_) fun h => ?_
  · rw [State.commitView, State.tripGroup_group]
    split
    · split
      · split <;> rfl
      · rfl
    · rfl
  · obtain ⟨hmem, hpend⟩ := State.mem_sealed.mp hd
    rw [State.tripGroup_sets] at hmem
    obtain ⟨k, -, rfl⟩ := List.mem_map.mp hmem
    split at hpend
    · rw [cancelledAs_isPending] at hpend
      exact nomatch hpend
    · next hk =>
      rw [if_neg hk] at hopen ⊢
      have hne : k.group ≠ g := fun hg => hk ⟨hg, hg ▸ of_decide_eq_false hopen⟩
      rwa [State.commitView, State.tripGroup_group, if_neg hne]
  · by_cases hg : h = g
    · subst hg
      by_cases hrun : (s.group h).run = .tripped
      · by_cases hhas : (s.group h).causes.has c = true
        · exact .inl (by rw [State.commitView, State.tripGroup_group, if_pos rfl, if_pos hrun, if_pos hhas]; rfl)
        · rw [State.commitView, State.tripGroup_group, if_pos rfl, if_pos hrun, if_neg hhas]
          exact .inr (iff_of_true (decide_eq_true hrun) (CauseSet.add_ne_empty _ c))
      · rw [State.commitView, State.tripGroup_group, if_pos rfl, if_neg hrun]
        exact .inr (iff_of_true rfl (CauseSet.add_ne_empty _ c))
    · exact .inl (by rw [State.commitView, State.tripGroup_group, if_neg hg]; rfl)

theorem tripGroups (s : State) (pick : Group → Bool) (c : Cause) : KeepsQueues s (s.tripGroups pick c) := by
  have h0 : KeepsQueues s (if pick .g0 then s.tripGroup .g0 c else s) := ite (fun _ => tripGroup s _ c) fun _ => refl s
  exact ite (fun _ => h0.trans (tripGroup _ _ c)) fun _ => h0

theorem assertInput (s : State) (i : TripInput) : KeepsQueues s (s.assertInput i) :=
  trans (t := s.modInput i fun v => { v with filter := .asserted }) (of_views rfl rfl) (tripGroups _ _ _)

/-- A cleared trip leaves the group STOPPED with no cause (R120). -/
theorem clearGroup (s : State) (g : Group) : KeepsQueues s (s.clearGroup g) := by
  have hview (h : Group) : (s.clearGroup g).commitView h =
      if h = g then { s.commitView h with tripped := false, causes := CauseSet.empty } else s.commitView h :=
    State.commitView_modGroup s g h _
  refine of_sublist (.refl s.sealed) (fun h => ?_) (fun c _ hopen => ?_) fun h => ?_
  · rw [hview]; split <;> rfl
  · rw [hview]
    split
    · rfl
    · exact hopen
  · rw [hview]
    split
    · exact .inr (by simp)
    · exact .inl rfl

/-- A reset of every block leaves no set, and both groups at their power-on values (R43, R67). -/
theorem of_reset (hsets : t.sets = []) (hgroups : ∀ g, t.group g = GroupState.atPowerOn) : KeepsQueues s t where
  items _ := by rw [PendingItemLaw, hsets]; exact .nil
  distance _ := by rw [DistanceLaw, hsets]; exact nofun
  tripped _ := by rw [TrippedLaw, hsets]; exact nofun
  causes _ g := by rw [hgroups]; decide

theorem enterReset (s : State) : KeepsQueues s s.enterReset := of_reset rfl fun g => by cases g <;> rfl

theorem releaseSelect (s : State) (p : Port) (whole : Bool) : KeepsQueues s (s.releaseSelect p whole) := by
  have h0 : KeepsQueues s (s.modPort p PortState.release) := (refl s).modPort p _
  unfold State.releaseSelect State.endTxn
  refine ite (fun _ => ?_) fun _ => h0
  split
  · exact h0
  · exact h0.modPort p _
  · exact h0.modPort p _
  · exact h0.modPort p _
  · have hview := commitView_lostGroup (State.resetPort_group (s.modPort p PortState.release) p false)
    exact (h0.trans (of_trims (.resetPort _ p false) hview)).modPort p _
  · exact of_reset rfl fun g => by cases g <;> rfl
  · exact h0.modPort p _
  · refine modPort (h0.trans (ite (fun _ => ?_) fun _ => refl _)) p _
    exact of_trims (.completeRead _ p) (commitView_completeRead _ p)

end KeepsQueues

/-! ### A seal -/

theorem resolveTarget_at (fn v : Frame) : resolveTarget fn (.at v) =
    if 1 ≤ (v - fn).toNat ∧ (v - fn).toNat ≤ 65535 then .ok v
    else if 65535 < (v - fn).toNat ∧ (v - fn).toNat < 2 ^ 31 then .error .far
    else .error .late := rfl

/-- The target that a form names lies from 1 to 65535 frames ahead (R73). -/
theorem resolveTarget_ahead {form : Byte} {value fn target : Frame} {f : SealForm} (hf : sealArg form value = some f)
    (h : resolveTarget fn f = .ok target) : 1 ≤ (target - fn).toNat ∧ (target - fn).toNat ≤ 65535 := by
  cases f with
  | next =>
    cases h
    bv_omega
  | after k =>
    have hk : 1 ≤ k ∧ k ≤ 65535 := by
      unfold sealArg Config.farthest at hf
      split at hf
      · exact nomatch hf
      · split at hf
        · cases hf; assumption
        · exact nomatch hf
      · exact nomatch hf
      · exact nomatch hf
    cases h
    bv_omega
  | _ v =>
    rw [resolveTarget_at] at h
    split at h
    · cases h; assumption
    · split at h <;> exact nomatch h

/-- Where the check of R72 finds nothing, no PENDING set has an edit of an item of the set. -/
theorem State.no_edit_of_itemPending {s : State} {c k : ChangeSet} {i : Item} (h : s.itemPending c = none)
    (hk : k ∈ s.sealed) (hi : c.hasEdit i = true) : k.hasEdit i = false := by
  obtain ⟨e, he, rfl⟩ := ChangeSet.hasEdit_iff.mp hi
  obtain ⟨hmem, hpend⟩ := State.mem_sealed.mp hk
  have hnone : s.pendingSetOf e.item = none := by simpa using List.findSome?_eq_none_iff.mp h e he
  simpa [hpend] using List.find?_eq_none.mp hnone k hmem

/-- The set sealed stands behind the sets sealed before it (R69). -/
theorem State.sealed_sealSet (s : State) (c : ChangeSet) (target : Frame) : (s.sealSet c target).sealed =
    (s.sealed.filter fun k => decide (k.id ≠ c.id)) ++ [{ c with body := .pending c.edits target (s.sealCount + 1) }] := by
  rw [State.sealed, State.sealSet, List.filter_append, List.filter_comm]
  rfl

/-- What an accepted SEAL has found: the checks of R71 that the laws turn on. -/
structure SealPasses (s : State) (c : ChangeSet) (target : Frame) : Prop where
  run : (s.group c.group).run ≠ .tripped
  items : s.itemPending c = none
  ahead : 1 ≤ (target - (s.group c.group).fn).toNat ∧ (target - (s.group c.group).fn).toNat ≤ 65535

/-- SEAL leaves the state, or seals a set that passes the checks (R71, R75). -/
theorem sealBody_cases (p : Port) (form : Byte) (value : Frame) (s : State) : (sealBody p form value s).state = s ∨
    ∃ c target, SealPasses s c target ∧ (sealBody p form value s).state = s.sealSet c target := by
  unfold sealBody
  split
  · exact .inl rfl
  next f hf =>
  split
  · exact .inl rfl
  next c hc =>
  dsimp only
  split
  · exact .inl rfl
  split
  · exact .inl rfl
  next hrun =>
  split
  · exact .inl rfl
  split
  · exact .inl rfl
  next hitems =>
  split
  · exact .inl rfl
  next target htarget =>
  split
  · exact .inl rfl
  · exact .inr ⟨c, target, ⟨hrun, hitems, resolveTarget_ahead hf htarget⟩, rfl⟩

namespace KeepsQueues

/-- A set that passes the checks joins the queue of its group (R69, R72, R73). -/
theorem sealSet {s : State} {c : ChangeSet} {target : Frame} (h : SealPasses s c target) :
    KeepsQueues s (s.sealSet c target) := by
  obtain ⟨hrun, hitems, hahead⟩ := h
  have hcases {d : ChangeSet} (hd : d ∈ (s.sealSet c target).sealed) :
      d ∈ s.sealed ∨ d = { c with body := .pending c.edits target (s.sealCount + 1) } := by
    rw [State.sealed_sealSet, List.mem_append, List.mem_singleton] at hd
    exact hd.imp_left List.mem_of_mem_filter
  refine ⟨fun hs => pendingItemLaw_iff.mpr ?_, fun hs => distanceLaw_iff.mpr fun d hd => ?_,
    fun hs => trippedLaw_iff.mpr fun d hd => ?_, fun hs => hs⟩
  · rw [State.sealed_sealSet]
    refine List.pairwise_append.mpr ⟨(pendingItemLaw_iff.mp hs).sublist List.filter_sublist, List.pairwise_singleton _ _,
      fun k hk d hd i hi => ?_⟩
    rw [List.mem_singleton] at hd
    subst hd
    obtain ⟨hki, hdi⟩ := hi
    rw [State.no_edit_of_itemPending hitems (List.mem_of_mem_filter hk) hdi] at hki
    exact nomatch hki
  · rcases hcases hd with hd | rfl
    · exact distanceLaw_iff.mp hs d hd
    · exact hahead
  · rcases hcases hd with hd | rfl
    · exact trippedLaw_iff.mp hs d hd
    · exact decide_eq_false hrun

theorem sealBody (p : Port) (form : Byte) (value : Frame) (s : State) :
    KeepsQueues s (sealBody p form value s).state := by
  rcases sealBody_cases p form value s with h | ⟨c, target, hpasses, h⟩
  · rw [h]; exact refl s
  · rw [h]; exact sealSet hpasses

end KeepsQueues

end Sys2Proof.Machine
end

section
/-! PROOFS. Every step keeps the laws of the commit queues: the owners of the commands, the rows, and the step. -/

set_option Elab.async false

namespace Sys2Proof.Machine

/-! ### The owners of the commands -/

section bodies
variable (s : State)

theorem commitView_raiseSeized (before : State) (p : Port) (mask : Byte) :
    (s.raiseSeized before p mask).commitView = s.commitView := by
  rw [State.raiseSeized_frame]; rfl

theorem commitView_stopTimers (ps : List Port) : (ps.foldl State.stopTimerIfIdle s).commitView = s.commitView := by
  rw [State.stopTimers_frame]; rfl

/-- A group that moves between states other than TRIPPED, its FN and its causes kept. -/
theorem commitView_moves {g : Group} {f : GroupState → GroupState} (h : (s.group g).run ≠ .tripped)
    (hrun : (f (s.group g)).run ≠ .tripped := by nofun) (hfn : (f (s.group g)).fn = (s.group g).fn := by rfl)
    (hcauses : (f (s.group g)).causes = (s.group g).causes := by rfl) : (s.modGroup g f).commitView = s.commitView :=
  commitView_modGroup s g (by simp [GroupState.commitView, h, hrun, hfn, hcauses])

theorem ChangeSet.withEdits_of_pending {f : List Edit → List Edit} {c : ChangeSet}
    (h : (c.withEdits f).isPending = true) : c.withEdits f = c := by
  obtain ⟨i, p, g, b⟩ := c
  cases b with
  | opened es => exact nomatch h
  | pending es target seq => rfl
  | done target outcome => rfl

namespace KeepsQueues

variable (p : Port)

theorem claimBody (mask : Byte) : KeepsQueues s (claimBody p mask s).state := by
  refine of_trims (claimBody_trims p s mask) ?_
  unfold Machine.claimBody
  split
  · rfl
  split
  · rfl
  · exact (commitView_startTimer _ p).trans (commitView_setHolders s _ _)

theorem releaseBody (mask : Byte) : KeepsQueues s (releaseBody p mask s).state := by
  refine of_trims (releaseBody_trims p s mask) ?_
  unfold Machine.releaseBody
  split
  · rfl
  split
  · rfl
  split
  · rfl
  · exact (commitView_stopTimerIfIdle _ p).trans (commitView_setHolders s _ _)

theorem seizeBody (mask : Byte) : KeepsQueues s (seizeBody p mask s).state := by
  refine of_trims (seizeBody_trims p s mask) ?_
  unfold Machine.seizeBody
  split
  · rfl
  split
  · rfl
  · dsimp only [accept]
    rw [commitView_stopTimers, commitView_startTimer, commitView_raiseSeized, commitView_cancelSets]
    exact commitView_setHolders s _ _

theorem setFallbackBody (item value : Byte) : KeepsQueues s (setFallbackBody p item value s).state := by
  refine of_views (setFallbackBody_table p s item value) ?_
  unfold Machine.setFallbackBody State.setItemFallback
  split
  · split
    · split
      · rfl
      · exact commitView_modGroup s _
    · rfl
  · rfl

theorem setLivenessBody (named timeout : Byte) : KeepsQueues s (setLivenessBody p named timeout s).state := by
  refine of_views (setLivenessBody_table p s named timeout) ?_
  unfold Machine.setLivenessBody
  split
  · rfl
  · split <;> rfl

theorem portResetBody (named : Byte) : KeepsQueues s (portResetBody p named s).state := by
  refine of_trims (portResetBody_trims p s named) ?_
  unfold Machine.portResetBody
  split
  · rfl
  split
  · rfl
  split
  · exact commitView_lostGroup (State.resetPort_group s _ _)
  · rfl

/-- A new set is OPEN (R51). -/
theorem openSetBody (group : Byte) : KeepsQueues s (openSetBody p group s).state := by
  unfold Machine.openSetBody
  split
  · exact refl s
  split
  · exact refl s
  split
  · exact refl s
  · refine of_sealed ?_ rfl
    rw [State.sealed, accept, List.filter_append]
    exact List.append_nil s.sealed ▸ .refl _

/-- An edit is placed in an OPEN set alone (R53, R54). -/
theorem stageEdit (c : ChangeSet) (e : Edit) : KeepsQueues s (stageEdit s c e).state := by
  unfold Machine.stageEdit
  split
  · exact refl s
  · refine of_sealed (pending_map_sublist (fun k hk => ?_) s.sets) rfl
    split at hk
    · next hid => rw [if_pos hid, ChangeSet.withEdits_of_pending hk]
    · next hid => exact if_neg hid

theorem stageLegBody (leg : Byte) (record : RawPattern) : KeepsQueues s (stageLegBody p leg record s).state := by
  unfold Machine.stageLegBody
  split
  · exact refl s
  split
  · exact refl s
  split
  · exact refl s
  split
  · exact refl s
  split
  · exact refl s
  · exact stageEdit s _ _

theorem stageGroupBody (group : Byte) (record : RawTiming) :
    KeepsQueues s (stageGroupBody p group record s).state := by
  unfold Machine.stageGroupBody
  split
  · exact refl s
  split
  · exact refl s
  split
  · exact refl s
  split
  · exact refl s
  split
  · exact refl s
  · exact stageEdit s _ _

theorem unstageBody (item : Byte) : KeepsQueues s (unstageBody p item s).state := by
  refine of_trims (unstageBody_trims p s item) ?_
  unfold Machine.unstageBody
  split
  · rfl
  split
  · rfl
  split <;> rfl

theorem abandonBody : KeepsQueues s (abandonBody p s).state := by
  refine of_trims (abandonBody_trims p s) ?_
  unfold Machine.abandonBody
  split <;> rfl

theorem withdrawBody (setId : Byte) : KeepsQueues s (withdrawBody p setId s).state := by
  refine of_trims (withdrawBody_trims p s setId) ?_
  unfold Machine.withdrawBody
  split
  · rfl
  split <;> rfl

theorem ackSetBody (setId : Byte) : KeepsQueues s (ackSetBody p setId s).state := by
  refine of_trims (ackSetBody_trims p s setId) ?_
  unfold Machine.ackSetBody
  split
  · rfl
  split <;> rfl

theorem setStatusBody (setId : Byte) : KeepsQueues s (setStatusBody p setId s).state := by
  refine of_views (setStatusBody_table p s setId) ?_
  unfold Machine.setStatusBody
  split <;> rfl

theorem configureGroupBody (group sync stopOutput : Byte) :
    KeepsQueues s (configureGroupBody p group sync stopOutput s).state := by
  refine of_views (configureGroupBody_table p s group sync stopOutput) ?_
  unfold Machine.configureGroupBody
  split
  · split
    · rfl
    split
    · rfl
    · funext g
      dsimp only [accept]
      rw [State.commitView, State.configure_group]
      split <;> rfl
  · rfl

theorem assignLegBody (leg group : Byte) : KeepsQueues s (assignLegBody p leg group s).state := by
  refine of_trims (assignLegBody_trims p s leg group) ?_
  unfold Machine.assignLegBody
  split
  · rfl
  split
  · split
    · rfl
    split <;> rfl
  · rfl

theorem setSafeBody (leg levelA levelB delay : Byte) :
    KeepsQueues s (setSafeBody p leg levelA levelB delay s).state := by
  refine of_views (setSafeBody_table p s leg levelA levelB delay) ?_
  unfold Machine.setSafeBody
  split
  · rfl
  split
  · split
    · rfl
    split <;> rfl
  · rfl

/-- START moves a STOPPED or HALTING group alone (R29). -/
theorem startBody (group : Byte) : KeepsQueues s (startBody p group s).state := by
  unfold Machine.startBody
  split
  · exact refl s
  split
  · exact refl s
  split
  · exact refl s
  split
  · exact refl s
  next g _ _ htripped _ =>
  have hrun : (s.group g).run ≠ .tripped := by simpa [State.tripped] using htripped
  dsimp only [accept]
  unfold State.startGroup
  split
  · refine ite (fun _ => raiseAll (of_views (tableView_modGroup s g) (commitView_moves s hrun)) _) fun _ => ?_
    exact (frameStart s g true hrun).raiseAll _
  · exact raiseAll (of_views (tableView_modGroup s g) (commitView_moves s hrun)) _
  · exact refl s
  · exact refl s
  · exact refl s

theorem stopGroup (g : Group) (atEnd : Bool) : KeepsQueues s (s.stopGroup g atEnd) := by
  have hstop (h : (s.group g).run ≠ .tripped) : KeepsQueues s (s.enterStopped g .stoppedNow) :=
    of_views (tableView_enterStopped s g _) (commitView_enterStopped s g _ h)
  unfold State.stopGroup
  split
  · exact refl s
  · exact refl s
  · next hrun => exact hstop (by rw [hrun]; exact nofun)
  · next hrun =>
    have hne : (s.group g).run ≠ .tripped := by rw [hrun]; exact nofun
    refine ite (fun _ => raiseAll (of_views (tableView_modGroup s g) ?_) _) fun _ => hstop hne
    exact commitView_moves s hne
  · next hrun => exact ite (fun _ => refl s) fun _ => hstop (by rw [hrun]; exact nofun)

theorem stopBody (group form : Byte) : KeepsQueues s (stopBody p group form s).state := by
  unfold Machine.stopBody
  split
  · split
    · exact refl s
    split
    · exact refl s
    · exact stopGroup s _ _
  · exact refl s

theorem tripBody (mask : Byte) : KeepsQueues s (tripBody p mask s).state := by
  unfold Machine.tripBody
  split
  · exact refl s
  split
  · exact refl s
  split
  · exact refl s
  · exact tripGroups s _ _

theorem clearTripBody (group : Byte) : KeepsQueues s (clearTripBody p group s).state := by
  unfold Machine.clearTripBody
  split
  · exact refl s
  split
  · exact refl s
  split
  · exact refl s
  split
  · exact refl s
  · exact clearGroup s _

theorem mapTripBody (input mask time : Byte) : KeepsQueues s (mapTripBody p input mask time s).state := by
  unfold Machine.mapTripBody State.mapInput
  split
  · exact refl s
  split
  · next i m _ _ =>
    have h (f : InputState → InputState) : KeepsQueues s (s.modInput i f) := of_views rfl rfl
    dsimp only [accept]
    split
    · exact h _
    · exact ite (fun _ => (h _).trans (assertInput _ i)) fun _ => h _
    · exact (h _).trans (tripGroups _ _ _)
  · exact refl s

end KeepsQueues
end bodies

/-! ### Rows -/

theorem State.ticking_not_tripped {s : State} {g : Group} (h : s.ticking g = true) : (s.group g).run ≠ .tripped := by
  rcases State.ticking_iff.mp h with hrun | hrun <;> simp [hrun]

namespace KeepsQueues

variable {s t : State}

/-- A command taken on a port: what its owner does is what the step does. -/
theorem serve {p : Port} {c : Instr} {body : State → Reply} (h : serve p c body s = .next t)
    (hb : ∀ v, KeepsQueues v (body v).state) : KeepsQueues s t := by
  by_cases hs : CanTake s p
  · rw [serve_of_canTake hs] at h
    cases h
    exact (((refl s).modPort p _).trans (hb _)).modPort p _
  · rw [serve_of_not_canTake hs] at h
    cases h
    exact refl s

/-- A command of inspection, whose owner leaves the state as it is. -/
theorem serve_same {p : Port} {c : Instr} {body : State → Reply} (h : Machine.serve p c body s = .next t)
    (hb : ∀ v, (body v).state = v) : KeepsQueues s t := serve h fun v => by rw [hb]; exact refl v

theorem serveSetWork {p : Port} {c : Instr} {body : State → Reply} (h : serveSetWork p c body s = .next t)
    (hb : ∀ v, KeepsQueues v (body v).state) : KeepsQueues s t :=
  serve h fun v => by
    rw [Reply.leaveDue_frame]
    exact (hb v).trans (of_views rfl rfl)

/-- An event that the part takes in OPERATING alone. -/
theorem inOperation {f : State → State} (h : inOperation f s = .next t) (hf : KeepsQueues s (f s)) :
    KeepsQueues s t := by
  by_cases hs : s.condition = .operating
  · rw [inOperation_of_operating f hs] at h
    cases h
    exact hf
  · rw [inOperation_of_not_operating f hs] at h
    cases h
    exact refl s

theorem onRefclk {f : State → State} (h : onRefclk f s = .next t) (hf : KeepsQueues (clocked s) (f (clocked s))) :
    KeepsQueues s t :=
  inOperation h (trans (t := clocked s) (of_views rfl rfl) hf)

theorem next {u : State} (h : (.next u : Host.Outcome State Fault Refusal) = .next t) (hu : KeepsQueues s u) :
    KeepsQueues s t := by
  cases h
  exact hu

theorem badRequest {p : Port} {bytes : List Byte} (h : execBadRequest p bytes s = .next t) : KeepsQueues s t := by
  unfold execBadRequest at h
  split at h
  · split at h <;> cases h <;> exact of_views rfl rfl
  · cases h; exact refl s

theorem malformed {p : Port} {cmd len : Byte} (h : execMalformed p cmd len s = .next t) : KeepsQueues s t := by
  unfold execMalformed at h
  split at h <;> cases h <;> exact of_views rfl rfl

theorem selectAsserted {p : Port} (h : execSelectAsserted p s = .next t) : KeepsQueues s t := by
  unfold execSelectAsserted at h
  dsimp only at h
  split at h <;> cases h <;> exact of_views rfl rfl

theorem livenessExpiry {p : Port} (h : execLivenessExpiry p s = .next t) : KeepsQueues s t :=
  inOperation h (ite (fun _ => of_trims (.expire s p) (commitView_lostGroup (State.expire_group s p))) fun _ => refl s)

/-- A fallback HALT notice moves a RUNNING group alone (R37). -/
theorem fallbackHalt {g : Group} (h : execFallbackHalt g s = .next t) : KeepsQueues s t := by
  have hnotice : KeepsQueues s (s.modGroup g fun v => { v with haltNotices := v.haltNotices - 1 }) :=
    of_views (tableView_modGroup s g) (commitView_modGroup s g)
  refine inOperation h (ite (fun _ => refl s) fun _ => ite (fun hrun => ?_) fun _ => hnotice)
  refine (hnotice.trans (of_views (tableView_modGroup _ g) (commitView_moves _ ?_))).raiseAll _
  rw [State.modGroup_group, if_pos rfl]
  exact hrun ▸ nofun

theorem tick {g : Group} (h : execTick g s = .next t) : KeepsQueues s t :=
  onRefclk h (ite (fun _ =>
    trans (t := (clocked s).modGroup g _) (of_views (tableView_modGroup _ g) (commitView_modGroup _ g))
      (of_views (tableView_tickStart _ _ _ _) rfl)) fun _ => refl _)

theorem frameEnd {g : Group} (h : execFrameEnd g s = .next t) : KeepsQueues s t :=
  onRefclk h (ite (fun hc => endFrame _ g (State.ticking_not_tripped (Bool.and_eq_true _ _ ▸ hc).1)) fun _ => refl _)

/-- A sync edge starts a frame in an ARMED group, or cuts one short in a group whose ticks run (R32, R34). -/
theorem takeEdge (s : State) (g : Group) (rising : Bool) : KeepsQueues s (s.takeEdge g rising) := by
  unfold State.takeEdge
  refine ite (fun hstart => ?_) fun _ => ite (fun hcut => ?_) fun _ => refl s
  · exact (frameStart s g true (by rw [hstart.1]; exact nofun)).raiseAll _
  · exact endFrame s g (State.ticking_not_tripped (State.ticking_iff.mpr (State.cutsFrame_iff.mp hcut).1))

theorem syncEdge {g : Group} {rising : Bool} (h : execSyncEdge g rising s = .next t) : KeepsQueues s t :=
  onRefclk h (ite (fun _ => refl _) fun _ =>
    trans (t := (clocked s).modSync g (SyncState.recognise rising)) (of_views rfl rfl) (takeEdge _ g rising))

theorem tripInputLow {i : TripInput} (h : execTripInputLow i s = .next t) : KeepsQueues s t := by
  refine trans (t := s.modInput i _) (of_views rfl rfl) (inOperation h (ite (fun _ => ?_) fun _ => refl _))
  unfold State.sampleLow
  dsimp only
  split
  · exact ite (fun _ => assertInput _ i) fun _ => of_views rfl rfl
  · exact refl _
  · exact refl _

theorem tripInputQualified {i : TripInput} (h : execTripInputQualified i s = .next t) : KeepsQueues s t := by
  refine inOperation h ?_
  split
  · exact ite (fun _ => assertInput s i) fun _ => refl s
  · exact refl s
  · exact refl s

theorem tripInputHigh {i : TripInput} (h : execTripInputHigh i s = .next t) : KeepsQueues s t :=
  trans (t := s.modInput i _) (of_views rfl rfl) (inOperation h (ite (fun _ => of_views rfl rfl) fun _ => refl _))

theorem clockLost (h : execClockLost s = .next t) : KeepsQueues s t :=
  inOperation h (ite (fun _ => refl s) fun _ =>
    trans (t := { s with monitor := .lost 0, refclkGap := 0 }.raiseAll (.clock false)) (of_views rfl rfl)
      (tripGroups _ _ _))

theorem startUpComplete (h : execStartUpComplete s = .next t) : KeepsQueues s t := by
  unfold execStartUpComplete at h
  split at h <;> cases h <;> exact of_views rfl rfl

theorem happen (s : State) (h : Happening) : KeepsQueues s (s.happen h) := by
  refine of_views (State.happen_table s h) ?_
  cases h with
  | oscillator => rw [State.happen_oscillator, State.countTenth_frame]; rfl
  | refclk =>
    funext g
    show (s.countRefclk.group g).commitView = _
    rw [State.countRefclk_group]
    rfl
  | syncPin g high => rfl
  | tripPin i low => rfl
  | sck p high data => rfl
  | notice g => rfl

end KeepsQueues

/-! ### A step -/

/-- What a row of the table can do to the commit queues: an arm for each. -/
theorem exec_keepsQueues {c : Instr} {s t : State} (h : exec c s = .next t) : KeepsQueues s t := by
  cases c with
  | identify p => exact .serve_same h fun _ => rfl
  | portStatus p named =>
    refine .serve_same h fun v => ?_
    unfold portStatusBody
    split
    · rfl
    · split <;> rfl
  | readEvent p => exact .serve_same h (readEventBody_state p)
  | setNotify p mask => exact .serve h fun v => .of_views rfl rfl
  | portReset p named => exact .serve h fun v => .portResetBody v p named
  | deviceReset p => exact .serve_same h fun v => by unfold deviceResetBody; split <;> rfl
  | claim p mask => exact .serve h fun v => .claimBody v p mask
  | release p mask => exact .serve h fun v => .releaseBody v p mask
  | seize p mask => exact .serve h fun v => .seizeBody v p mask
  | setFallback p item value => exact .serve h fun v => .setFallbackBody v p item value
  | setLiveness p named timeout => exact .serve h fun v => .setLivenessBody v p named timeout
  | readLeases p => exact .serve_same h fun _ => rfl
  | openSet p group => exact .serve h fun v => .openSetBody v p group
  | stageLeg p leg record => exact .serveSetWork h fun v => .stageLegBody v p leg record
  | stageGroup p group record => exact .serveSetWork h fun v => .stageGroupBody v p group record
  | unstage p item => exact .serve h fun v => .unstageBody v p item
  | abandon p => exact .serve h fun v => .abandonBody v p
  | withdraw p setId => exact .serve h fun v => .withdrawBody v p setId
  | ackSet p setId => exact .serve h fun v => .ackSetBody v p setId
  | setStatus p setId => exact .serve h fun v => .setStatusBody v p setId
  | start p group => exact .serve h fun v => .startBody v p group
  | stop p group form => exact .serve h fun v => .stopBody v p group form
  | configureGroup p group sync out => exact .serve h fun v => .configureGroupBody v p group sync out
  | assignLeg p leg group => exact .serve h fun v => .assignLegBody v p leg group
  | trip p mask => exact .serve h fun v => .tripBody v p mask
  | clearTrip p group => exact .serve h fun v => .clearTripBody v p group
  | mapTrip p input mask time => exact .serve h fun v => .mapTripBody v p input mask time
  | setSafe p leg a b delay => exact .serve h fun v => .setSafeBody v p leg a b delay
  | readActive p item => exact .serve_same h fun v => by unfold readActiveBody; split <;> rfl
  | readPending p item =>
    refine .serve_same h fun v => ?_
    unfold readPendingBody
    split
    · rfl
    · split <;> rfl
  | readOutputs p => exact .serve_same h fun _ => rfl
  | badRequest p bytes => exact .badRequest h
  | malformed p cmd len => exact .malformed h
  | selectAsserted p => exact .selectAsserted h
  | selectReleased p whole => exact .next h (.releaseSelect s p whole)
  | readEventCompleted p =>
    exact .inOperation (f := fun u => u.completeRead p) h (.of_trims (.completeRead s p) (commitView_completeRead s p))
  | portResetEffect p whole => exact .next h (.releaseSelect s p whole)
  | deviceResetEffect p whole => exact .next h (.releaseSelect s p whole)
  | livenessExpiry p => exact .livenessExpiry h
  | fallbackHalt g => exact .fallbackHalt h
  | tick g => exact .tick h
  | frameEnd g => exact .frameEnd h
  | syncEdge g rising => exact .syncEdge h
  | tripInputLow i => exact .tripInputLow h
  | tripInputQualified i => exact .tripInputQualified h
  | tripInputHigh i => exact .tripInputHigh h
  | safeWaitExpiry l =>
    exact .inOperation h (.ite (fun _ => .of_views (tableView_modLeg s l fun _ => ⟨rfl, rfl⟩) rfl) fun _ => .refl s)
  | clockLost => exact .clockLost h
  | restoreCountRestart => exact .inOperation h (.ite (fun _ => .of_views rfl rfl) fun _ => .refl s)
  | clockRestored => exact .inOperation h (.ite (fun _ => .of_views rfl rfl) fun _ => .refl s)
  | powerOn straps => exact .next h (.ite (fun _ => .of_views rfl rfl) fun _ => .refl s)
  | powerFail => exact .next h (.enterReset s)
  | resetnAsserted => exact .next h (.enterReset s)
  | resetnReleased straps => exact .next h (.ite (fun _ => .of_views rfl rfl) fun _ => .refl s)
  | startUpComplete => exact .startUpComplete h
  | _ p form value => exact .serveSetWork h fun v => .sealBody p form value v

/-- What a step can do to the commit queues: a row of the table, or idling. -/
theorem step_keepsQueues {s t : State} (h : step s = .next t) : KeepsQueues s t := by
  unfold step at h
  split at h
  · cases h
    unfold State.idle
    exact .ite (fun _ => .trans (t := { s with choices := s.choices + 1 }) (.of_views rfl rfl) (.happen _ _))
      fun _ => .refl s
  · next rest _ => exact .trans (t := { s with pending := rest }) (.of_views rfl rfl) (exec_keepsQueues h)

/-- Settles O7: PENDING sets leave the queues, come one frame nearer at a frame start that takes those it reaches, or join
them by a SEAL that has checked their items and their target. -/
theorem pendingSetsStaySound : Obligations.PendingSetsStaySound := by
  intro s t h
  have hkeeps := step_keepsQueues h
  exact ⟨hkeeps.items, hkeeps.distance⟩

/-- Settles O8: a trip cancels the sets of its group and leaves a cause, a cleared trip leaves none, and no other row moves a
group into TRIPPED or out of it. -/
theorem trippedGroupsStayBare : Obligations.TrippedGroupsStayBare := by
  intro s t htripped hcauses h
  have hkeeps := step_keepsQueues h
  exact ⟨hkeeps.tripped htripped, hkeeps.causes hcauses⟩

end Sys2Proof.Machine
end

section
/-! PROOFS. The targets of SEAL, a SEAL that is accepted, and TRIP. -/

set_option Elab.async false

namespace Sys2Proof.Machine

/-! ### SEAL -/

/-- Settles O32: NEXT and AFTER resolve outright, and AT by the distance of its frame from FN. -/
theorem targetsResolve : Obligations.TargetsResolve := by
  intro fn
  refine ⟨rfl, fun _ _ _ => rfl, fun f => ⟨fun hnear => ?_, fun hfar => ?_, fun hlate => ?_⟩⟩
  · rw [resolveTarget_at, if_pos hnear]
  · rw [resolveTarget_at, if_neg (by omega), if_pos (by omega)]
  · rw [resolveTarget_at, if_neg (by omega), if_neg (by omega)]

theorem State.pendingSetOf_eq_none {s : State} {i : Item}
    (h : ∀ k ∈ s.sets, k.isPending = true → k.hasEdit i = false) : s.pendingSetOf i = none :=
  List.find?_eq_none.mpr fun k hk => by simpa using h k hk

/-- SEAL that passes R71's checks. -/
theorem sealBody_accepts {s : State} {p : Port} {form : Byte} {value target : Frame} {f : SealForm} {c : ChangeSet}
    (hf : sealArg form value = some f) (hc : s.openSetOf p = some c) (hedits : c.edits ≠ [])
    (hrun : (s.group c.group).run ≠ .tripped) (hlimit : s.pendingCount p + s.doneCount p < 4)
    (hitems : s.itemPending c = none) (htarget : resolveTarget (s.group c.group).fn f = .ok target)
    (hvalid : s.validate c.group c.edits = none) :
    sealBody p form value s = accept (s.sealSet c target)
      ([byteOf c.id, byteOf (groupNum c.group)] ++ frameBytes target ++ frameBytes (s.group c.group).fn) := by
  have hroom : ¬Config.portSetLimit ≤ s.pendingCount p + s.doneCount p := Nat.not_le.mpr hlimit
  simp only [sealBody, hf, hc, if_neg hedits, if_neg hrun, if_neg hroom, hitems, htarget, hvalid, be32_eq, groupCode]

/-- Settles O33: the set leaves its place in the table and stands PENDING behind the others. -/
theorem sealMakesTheSetPending : Obligations.SealMakesTheSetPending := by
  intro p form value f target c s hcan htable hc hp ho hf hedits hrun hlimit hfree htarget hvalid
  have hitems : s.itemPending c = none := State.itemPending_eq_none fun e he =>
    State.pendingSetOf_eq_none fun k hk hpend => hfree k hk hpend e he
  obtain ⟨t, hans, hframe, hserved⟩ := answers_setWork hcan rfl (c := .seal p form value)
    (sealBody_accepts (s := s.taking p (.seal p form value)) hf (htable.openSetOf_eq_some hc hp ho) hedits hrun hlimit
      hitems htarget hvalid) fun _ => rfl
  have hsets : (s.sets.filter fun k => decide (k.id ≠ c.id)) = s.sets.filter fun k => decide (k ≠ c) :=
    htable.removeSet_eq hc
  refine ⟨t, hans, ?_, hserved⟩
  rw [← hsets]
  exact hframe

/-! ### TRIP -/

/-- What TRIP reports of a group (R115). -/
theorem State.tripReport_eq (s : State) (named : Bool) (g : Group) : s.tripReport named g =
    [if named = false then 0
      else if (s.group g).run ≠ .tripped then 1
      else if (s.group g).causes.command = true then 3 else 2, runByte (s.group g).run] := by
  simp only [State.tripReport, RunState.code_eq, Bool.not_eq_true', ← Bool.not_eq_true, State.tripped_iff, Ne]

/-- TRIP that passes R115's refusals. -/
theorem tripBody_accepts {s : State} {p : Port} {mask : Byte} (hsup : s.isSupervisor p = true) (hne : mask ≠ 0)
    (hmask : mask.toNat ≤ 3) : tripBody p mask s =
      accept (s.tripGroups (fun g => mask.getLsbD (groupNum g)) .command)
        (s.tripReport (mask.getLsbD 0) .g0 ++ s.tripReport (mask.getLsbD 1) .g1) := by
  have hpick : PerGroup.get { g0 := mask.getLsbD 0, g1 := mask.getLsbD 1 } = fun g => mask.getLsbD (groupNum g) :=
    funext fun g => by cases g <;> rfl
  rw [tripBody, if_neg (by simp [hsup]), groupMaskArg, if_pos hmask, ← hpick]
  exact if_neg hne

/-- Settles O48: the refusals, and the groups of the mask reached by cause COMMAND. -/
theorem tripCommandTrips : Obligations.TripCommandTrips := by
  intro p mask s hcan hlaw
  refine ⟨fun hsup => refuses_of hcan rfl (if_pos ?_), fun hsup hbad => refuses_of hcan rfl ?_, fun hsup hne hmask => ?_⟩
  · simpa using mt State.isSupervisor_iff.mp hsup
  all_goals have hport := State.isSupervisor_iff.mpr hsup
  · rcases hbad with rfl | hbad
    · simp [tripBody, hport, groupMaskArg]
    · simp [tripBody, hport, groupMaskArg, Nat.not_le.mpr hbad]
  intro pick code
  have hbody := tripBody_accepts (s := s.taking p (.trip p mask)) (p := p) hport hne hmask
  rw [State.tripReport_eq, State.tripReport_eq] at hbody
  obtain ⟨t, hans, hframe, hserved⟩ := answers_of_told hcan rfl hbody (State.tripGroups_told _ pick .command)
  obtain ⟨hgroups, hlegs, hsets⟩ := State.tripGroups_trippedBy (s.taking p (.trip p mask)) pick .command hlaw
  refine ⟨t, hans, ?_, ?_, hserved⟩
  · rw [hframe]
    exact ⟨hgroups, hlegs, hsets⟩
  · rw [hframe, State.tripGroups_frame]
    rfl

end Sys2Proof.Machine
end

section
/-! PROOFS. CLAIM, RELEASE, SET FALLBACK and SET LIVENESS: the searches that refuse a mask, the holders and the timer that a
granted one leaves, and each command's answer. -/

set_option Elab.async false

namespace Sys2Proof.Machine

/-! ### Commands that set holders and timers -/

/-- A command that its owner accepts with no port changed but the timer of the issuing one. -/
theorem answers_of_timer {s u : State} {p : Port} {c : Instr} {body : State → Reply} {data : List Byte}
    {timer : Option Nat} (h : CanTake s p) (hc : exec c s = serve p c body s)
    (hb : body (s.taking p c) = accept u data)
    (hu : ∀ q, u.port q = if q = p then { (s.taking p c).port q with timer := timer } else (s.taking p c).port q) :
    ∃ t, Answers c p s t .ok data .none ∧ t = { u with ports := t.ports } ∧ Served p noRecords timer s t := by
  obtain ⟨t, hans, hframe, hother, hown⟩ := answers_of_effect h hc hb
  refine ⟨t, hans, hframe, fun q hq => ?_, ?_⟩
  · rw [hother q hq, hu, if_neg hq, State.taking_port, if_neg hq, noRecords, PortState.afterRecords_nil]
  · rw [hown, hu, if_pos rfl, State.taking_port, if_pos rfl, noRecords, PortState.afterRecords_nil]

/-- Holders set, and the ports changed: the frame of CLAIM and RELEASE (R93, R95). -/
theorem holdersOnly_of_setHolders {s t : State} {pick : Item → Bool} {h : Option Port}
    (ht : t = { s.setHolders pick h with ports := t.ports }) :
    (∀ i, t.holder i = if pick i = true then h else s.holder i) ∧ HoldersOnly s t := by
  have hholder (i : Item) : t.holder i = (s.setHolders pick h).holder i := by
    rw [ht]; cases i <;> rfl
  refine ⟨fun i => (hholder i).trans (State.setHolders_holder s pick h i), ?_⟩
  have hframe := congrArg (fun u : State => { u with ports := t.ports }) (State.setHolders_frame s pick h)
  simp only [← hholder] at hframe
  exact ht.trans hframe

/-! ### CLAIM -/

/-- A mask that names an item is not 0. -/
theorem ne_zero_of_inMask {mask : Byte} {i : Item} (h : inMask mask i = true) : mask ≠ 0 := by
  rintro rfl
  simp [inMask] at h

theorem State.heldByOther_iff {s : State} {p : Port} {i : Item} :
    s.heldByOther p i = true ↔ ∃ q, s.holder i = some q ∧ q ≠ p := by
  unfold State.heldByOther State.holds
  cases s.holder i with
  | none => simp
  | some q => simp

theorem State.not_heldByOther_iff {s : State} {p : Port} {i : Item} :
    s.heldByOther p i = false ↔ s.holder i = none ∨ s.holder i = some p := by
  unfold State.heldByOther State.holds
  cases s.holder i with
  | none => simp
  | some q => simp

/-- The state that a granted CLAIM leaves behind the answer (R93, R101). -/
def State.claimed (s : State) (p : Port) (mask : Byte) : State := (s.setHolders (inMask mask) (some p)).startTimer p

theorem claimBody_eq_refuse {s : State} {p : Port} {mask : Byte} {i : Item} (hin : inMask mask i = true)
    (hheld : s.heldByOther p i = true)
    (hlow : ∀ j, j.num < i.num → inMask mask j = true → s.heldByOther p j = false) :
    claimBody p mask s = refuse s .held [i.code, holderCode (s.holder i)] := by
  have hfind : (allItems.find? fun k => inMask mask k && s.heldByOther p k) = some i := by
    refine find?_allItems _ i (by rw [hin, hheld]; rfl) fun j hj => ?_
    cases hm : inMask mask j with
    | true => exact hlow j hj hm
    | false => rfl
  rw [claimBody, if_neg (ne_zero_of_inMask hin), hfind]

theorem claimBody_eq_accept {s : State} {p : Port} {mask : Byte} (hmask : mask ≠ 0)
    (hfree : ∀ i, inMask mask i = true → s.heldByOther p i = false) :
    claimBody p mask s = accept (s.claimed p mask)
      [maskOf fun i => inMask mask i && (s.holder i).isNone, (s.claimed p mask).heldMask p] := by
  have hfind : (allItems.find? fun k => inMask mask k && s.heldByOther p k) = none :=
    List.find?_eq_none.mpr fun i _ => by
      cases hm : inMask mask i with
      | true => simp [hfree i hm]
      | false => simp
  rw [claimBody, if_neg hmask, hfind]
  rfl

section claimed
variable (s : State) (p : Port) (mask : Byte)

theorem State.claimed_frame : s.claimed p mask =
    { s.setHolders (inMask mask) (some p) with ports := (s.claimed p mask).ports } := State.startTimer_frame _ p

theorem State.claimed_holder (i : Item) :
    (s.claimed p mask).holder i = if inMask mask i = true then some p else s.holder i := by
  rw [State.claimed, State.startTimer_holder, State.setHolders_holder]

/-- The timer of the port that claims runs with its new leases, and no other port is touched (R101). -/
theorem State.claimed_port (hmask : mask ≠ 0) (q : Port) : (s.claimed p mask).port q =
    if q = p then
      { s.port q with timer :=
          if (s.port q).timeout ≠ 0 ∧ (s.port q).timer = none then some (s.port q).timeout else (s.port q).timer }
    else s.port q := by
  have hholds : (s.setHolders (inMask mask) (some p)).holdsAny p = true := by
    obtain ⟨i, -, hi⟩ := exists_inMask mask hmask
    rw [State.holdsAny_iff]
    exact ⟨i, by rw [State.setHolders_holder, if_pos hi]⟩
  rw [State.claimed, State.startTimer_port, hholds, State.setHolders_port, State.setHolders_port]
  by_cases hq : q = p
  · subst hq
    simp only [true_and, if_true]
    split <;> rfl
  · rw [if_neg fun h => hq h.1, if_neg hq]

end claimed

/-- Settles O21: the refusals name the lowest item of another port, and a granted mask is the port's whole. -/
theorem claimIsGrantedWhole : Obligations.ClaimIsGrantedWhole := by
  intro p mask s hcan
  have hheld (i : Item) : (s.taking p (.claim p mask)).heldByOther p i = s.heldByOther p i := by
    simp only [State.heldByOther, State.taking_holder, State.taking_holds]
  refine ⟨fun hmask => refuses_of hcan rfl (if_pos hmask), fun i q hin hq hne hlow => refuses_of hcan rfl ?_,
    fun hmask hfree => ?_⟩
  · rw [claimBody_eq_refuse hin ((hheld i).trans (State.heldByOther_iff.mpr ⟨q, hq, hne⟩))
      (fun j hj hm => (hheld j).trans (State.not_heldByOther_iff.mpr (hlow j hj hm))), State.taking_holder, hq]
    rfl
  · have hbody := claimBody_eq_accept (s := s.taking p (.claim p mask)) (p := p) hmask
      fun i hi => (hheld i).trans (State.not_heldByOther_iff.mpr (hfree i hi))
    obtain ⟨t, hans, hframe, hserved⟩ := answers_of_timer hcan rfl (c := .claim p mask) hbody
      (timer := if (s.port p).timeout = 0 then (s.port p).restarted else some (s.port p).timeout) fun q => by
        rw [State.claimed_port _ _ _ hmask, State.taking_port]
        by_cases hq : q = p
        · subst hq
          simp only [if_true]
          rw [PortState.started_eq]
        · simp only [if_neg hq]
    obtain ⟨hholder, honly⟩ := holdersOnly_of_setHolders (s := s) (hframe.trans (by rw [State.claimed_frame]; rfl))
    refine ⟨t, ?_, hholder, honly, hserved⟩
    have hgranted : (fun i => inMask mask i && ((s.taking p (.claim p mask)).holder i).isNone) =
        fun i => inMask mask i && decide (s.holder i = none) := by
      funext i
      rw [State.taking_holder]
      cases s.holder i <;> rfl
    have hmasks : ((s.taking p (.claim p mask)).claimed p mask).holds p =
        fun i => inMask mask i || decide (s.holder i = some p) := by
      funext i
      rw [State.holds, State.claimed_holder, State.taking_holder]
      cases inMask mask i <;> simp
    rwa [State.heldMask, hgranted, hmasks] at hans

/-! ### RELEASE -/

/-- The set that a RELEASE refused IN_SET names is one of the port's with an edit of the item (R95). -/
theorem State.inSetNamed_spec {s : State} {p : Port} {i : Item} {id : Nat} (h : s.inSetNamed p i = some id) :
    ∃ c ∈ s.sets, c.owner = p ∧ c.hasEdit i = true ∧ c.id = id := by
  have hfound {test : ChangeSet → Bool} {c : ChangeSet}
      (hc : (s.sets.find? fun c => decide (c.owner = p) && test c && c.hasEdit i) = some c) :
      c ∈ s.sets ∧ c.owner = p ∧ c.hasEdit i = true := by
    have htest := List.find?_some hc
    simp only [Bool.and_eq_true, decide_eq_true_eq] at htest
    exact ⟨List.mem_of_find?_eq_some hc, htest.1.1, htest.2⟩
  unfold State.inSetNamed at h
  dsimp only at h
  split at h
  · next a b ha hb =>
    obtain ⟨hmemA, hpA, hiA⟩ := hfound ha
    obtain ⟨hmemB, hpB, hiB⟩ := hfound hb
    obtain rfl := Option.some.inj h
    split
    · exact ⟨b, hmemB, hpB, hiB, rfl⟩
    · exact ⟨a, hmemA, hpA, hiA, rfl⟩
  · next a ha hb =>
    obtain ⟨hmem, hp, hi⟩ := hfound ha
    exact ⟨a, hmem, hp, hi, Option.some.inj h⟩
  · next b ha hb =>
    obtain ⟨hmem, hp, hi⟩ := hfound hb
    exact ⟨b, hmem, hp, hi, Option.some.inj h⟩
  · cases h

theorem State.inSetNamed_eq_none {s : State} {p : Port} {i : Item}
    (h : ∀ c ∈ s.sets, c.owner = p → c.hasEdit i = false) : s.inSetNamed p i = none := by
  cases hnamed : s.inSetNamed p i with
  | none => rfl
  | some id =>
    obtain ⟨c, hc, hp, hi, -⟩ := State.inSetNamed_spec hnamed
    exact absurd ((h c hc hp).symm.trans hi) Bool.false_ne_true

theorem State.inSetNamed_eq_some {s : State} {p : Port} {i : Item}
    (h : ∃ c ∈ s.sets, c.owner = p ∧ c.hasEdit i = true) :
    ∃ c ∈ s.sets, c.owner = p ∧ c.hasEdit i = true ∧ s.inSetNamed p i = some c.id := by
  obtain ⟨c, hc, rfl, hi⟩ := h
  obtain ⟨e, he, rfl⟩ := ChangeSet.hasEdit_iff.mp hi
  obtain ⟨id, hid⟩ := Option.ne_none_iff_exists'.mp (State.inSetNamed_ne_none hc he)
  obtain ⟨d, hd, hp, hedit, rfl⟩ := State.inSetNamed_spec hid
  exact ⟨d, hd, hp, hedit, hid⟩

/-- The search of RELEASE for an item of the mask that the port does not hold. -/
theorem State.find?_notHeld_eq_none {s : State} {p : Port} {mask : Byte}
    (h : ∀ i, inMask mask i = true → s.holder i = some p) :
    (allItems.find? fun i => inMask mask i && !s.holds p i) = none :=
  List.find?_eq_none.mpr fun i _ => by
    cases hm : inMask mask i with
    | true => simp [State.holds_iff.mpr (h i hm)]
    | false => simp

/-- The state that a granted RELEASE leaves behind the answer (R95, R101). -/
def State.released (s : State) (p : Port) (mask : Byte) : State := (s.setHolders (inMask mask) none).stopTimerIfIdle p

theorem releaseBody_notHolder {s : State} {p : Port} {mask : Byte} {i : Item} (hin : inMask mask i = true)
    (hne : s.holder i ≠ some p) (hlow : ∀ j, j.num < i.num → inMask mask j = true → s.holder j = some p) :
    releaseBody p mask s = refuse s .notHolder [i.code, holderCode (s.holder i)] := by
  have hfind : (allItems.find? fun k => inMask mask k && !s.holds p k) = some i := by
    refine find?_allItems _ i (by simp [hin, State.holds, hne]) fun j hj => ?_
    cases hm : inMask mask j with
    | true => simp [State.holds_iff.mpr (hlow j hj hm)]
    | false => rfl
  rw [releaseBody, if_neg (ne_zero_of_inMask hin), hfind]

theorem releaseBody_inSet {s : State} {p : Port} {mask : Byte} {i : Item} {id : Nat}
    (hheld : ∀ i, inMask mask i = true → s.holder i = some p) (hin : inMask mask i = true)
    (hid : s.inSetNamed p i = some id)
    (hlow : ∀ j, j.num < i.num → inMask mask j = true → s.inSetNamed p j = none) :
    releaseBody p mask s = refuse s .inSet [i.code, byteOf id] := by
  have hfind : (allItems.findSome? fun k =>
      if inMask mask k then (s.inSetNamed p k).map fun id => (k, id) else none) = some (i, id) := by
    refine findSome?_allItems _ i _ (by rw [if_pos hin, hid]; rfl) fun j hj => ?_
    split
    · next hm => rw [hlow j hj hm]; rfl
    · rfl
  rw [releaseBody, if_neg (ne_zero_of_inMask hin), State.find?_notHeld_eq_none hheld]
  dsimp only
  rw [hfind]

theorem releaseBody_eq_accept {s : State} {p : Port} {mask : Byte} (hmask : mask ≠ 0)
    (hheld : ∀ i, inMask mask i = true → s.holder i = some p)
    (hfree : ∀ i, inMask mask i = true → s.inSetNamed p i = none) :
    releaseBody p mask s = accept (s.released p mask) [(s.released p mask).heldMask p] := by
  have hfind : (allItems.findSome? fun k =>
      if inMask mask k then (s.inSetNamed p k).map fun id => (k, id) else none) = none :=
    List.findSome?_eq_none_iff.mpr fun i _ => by
      split
      · next hm => rw [hfree i hm]; rfl
      · rfl
  rw [releaseBody, if_neg hmask, State.find?_notHeld_eq_none hheld]
  dsimp only
  rw [hfind]
  rfl

section released
variable (s : State) (p : Port) (mask : Byte)

theorem State.released_frame : s.released p mask =
    { s.setHolders (inMask mask) none with ports := (s.released p mask).ports } := State.stopTimerIfIdle_frame _ p

theorem State.released_holder (i : Item) :
    (s.released p mask).holder i = if inMask mask i = true then none else s.holder i := by
  rw [State.released, State.stopTimerIfIdle_holder, State.setHolders_holder]

/-- The timer of the port that releases stops where it holds nothing more, and no other port is touched (R101). -/
theorem State.released_port (q : Port) : (s.released p mask).port q =
    if q = p then
      { s.port q with timer := if (s.released p mask).holdsAny p = true then (s.port q).timer else none }
    else s.port q := by
  have hholds : (s.released p mask).holdsAny p = (s.setHolders (inMask mask) none).holdsAny p := by
    rw [State.released_frame]; rfl
  rw [hholds, State.released, State.stopTimerIfIdle_port, State.setHolders_port]
  cases (s.setHolders (inMask mask) none).holdsAny p <;> by_cases hq : q = p <;> simp [hq]

end released

/-- Settles O22: the refusals name the lowest item, and a granted mask is free whole. -/
theorem releaseIsTakenWhole : Obligations.ReleaseIsTakenWhole := by
  intro p mask s hcan
  refine ⟨fun hmask => refuses_of hcan rfl (if_pos hmask), fun i hin hne hlow => refuses_of hcan rfl ?_,
    fun hheld => ⟨fun i hin hedit hlow => ?_, fun hmask hfree => ?_⟩⟩
  · rw [releaseBody_notHolder hin (by rwa [State.taking_holder]) (fun j hj hm => by rw [State.taking_holder, hlow j hj hm]),
      State.taking_holder, holderCode_eq]
    rfl
  · obtain ⟨c, hc, hp, hi, hid⟩ := State.inSetNamed_eq_some hedit
    exact ⟨c, hc, hp, hi, refuses_of hcan rfl (releaseBody_inSet (s := s.taking p (.release p mask))
      (fun j hj => by rw [State.taking_holder, hheld j hj]) hin hid
      (fun j hj hm => State.inSetNamed_eq_none (hlow j hj hm)))⟩
  · have hbody := releaseBody_eq_accept (s := s.taking p (.release p mask)) (p := p) hmask
      (fun i hi => by rw [State.taking_holder, hheld i hi]) fun i hi => State.inSetNamed_eq_none (hfree i hi)
    obtain ⟨t, hans, hframe, hserved⟩ := answers_of_timer hcan rfl (c := .release p mask) hbody
      (timer := if ((s.taking p (.release p mask)).released p mask).holdsAny p = true then (s.port p).restarted else none)
      fun q => by
        rw [State.released_port, State.taking_port]
        by_cases hq : q = p
        · subst hq
          simp only [if_true]
        · simp only [if_neg hq]
    have hholds : ((s.taking p (.release p mask)).released p mask).holdsAny p = t.holdsAny p := by rw [hframe]; rfl
    rw [hholds] at hserved
    obtain ⟨hholder, honly⟩ := holdersOnly_of_setHolders (s := s) (hframe.trans (by rw [State.released_frame]; rfl))
    refine ⟨t, ?_, hholder, honly, hserved⟩
    have hmasks : ((s.taking p (.release p mask)).released p mask).holds p =
        fun i => !inMask mask i && decide (s.holder i = some p) := by
      funext i
      rw [State.holds, State.released_holder, State.taking_holder]
      cases inMask mask i <;> simp
    rwa [State.heldMask, hmasks] at hans

/-! ### SET FALLBACK -/

theorem flagArg_of_le {b : Byte} (h : b.toNat ≤ 1) : flagArg b = some (decide (b ≠ 0)) := by
  rcases flagArg_eq_some h with ⟨rfl, hflag⟩ | ⟨rfl, hflag⟩ <;> exact hflag

theorem State.setItemFallback_leg (s : State) (i : Item) (v : Bool) (l : Leg) : (s.setItemFallback i v).leg l =
    if i = .leg l then { s.leg l with fallback := if v then .off else .hold } else s.leg l := by
  cases i with
  | leg k =>
    rw [State.setItemFallback, State.modLeg_leg]
    simp only [Item.leg.injEq, eq_comm]
  | group g => rfl

theorem State.setItemFallback_group (s : State) (i : Item) (v : Bool) (g : Group) : (s.setItemFallback i v).group g =
    if i = .group g then { s.group g with fallback := if v then .halt else .run } else s.group g := by
  cases i with
  | leg k => rfl
  | group k =>
    rw [State.setItemFallback, State.modGroup_group]
    simp only [Item.group.injEq, eq_comm]

/-- A fallback replaced changes a leg or a group alone. -/
theorem State.setItemFallback_frame (s : State) (i : Item) (v : Bool) : s.setItemFallback i v =
    { s with legs := (s.setItemFallback i v).legs, groups := (s.setItemFallback i v).groups } := by
  cases i <;> rfl

/-- Settles O24: the refusals, and the one field that an accepted SET FALLBACK replaces. -/
theorem setFallbackReplacesTheField : Obligations.SetFallbackReplacesTheField := by
  intro p item value s hcan
  refine ⟨fun hbad => refuses_of hcan rfl ?_, fun i hi hv => ⟨fun hne => refuses_of hcan rfl ?_, fun hheld => ?_⟩⟩
  · rcases hbad with hbad | hbad
    · rw [setFallbackBody, itemArg_eq_none hbad]
    · rw [setFallbackBody, flagArg_eq_none.mpr hbad]
      cases itemArg item <;> rfl
  · rw [setFallbackBody, itemArg_of_num hi, flagArg_of_le hv]
    exact if_neg (mt State.holds_iff.mp (by rwa [State.taking_holder]))
  · have hbody : setFallbackBody p item value (s.taking p (.setFallback p item value)) =
        accept ((s.taking p (.setFallback p item value)).setItemFallback i (decide (value ≠ 0))) [item, value] := by
      rw [setFallbackBody, itemArg_of_num hi, flagArg_of_le hv]
      exact if_pos (State.holds_iff.mpr (by rwa [State.taking_holder]))
    obtain ⟨t, hans, hframe, hserved⟩ := answers_of_accept hcan rfl (c := .setFallback p item value) hbody
      fun q => by rw [State.setItemFallback_frame]; rfl
    refine ⟨t, hans, fun l => ?_, fun g => ?_, ?_, hserved⟩
    · rw [hframe]
      exact (State.setItemFallback_leg _ i _ l).trans (by simp)
    · rw [hframe]
      exact (State.setItemFallback_group _ i _ g).trans (by simp)
    · rw [hframe, State.setItemFallback_frame]
      rfl

/-! ### SET LIVENESS -/

theorem State.timerFor_eq (s : State) (q : Port) (timeout : Byte) : s.timerFor q timeout.toNat =
    if s.holdsAny q = true ∧ timeout ≠ 0 then some timeout.toNat else none := by
  have hzero : timeout.toNat = 0 ↔ timeout = 0 := (BitVec.toNat_inj (y := 0#8))
  simp [State.timerFor, hzero]

/-- Settles O25: the refusals, and the timeout and the timer of the named port. -/
theorem setLivenessSetsTheTimer : Obligations.SetLivenessSetsTheTimer := by
  intro p named timeout s hcan
  refine ⟨fun hsup => refuses_of hcan rfl (if_pos ?_), fun hsup hbad => refuses_of hcan rfl ?_, fun hsup q hq => ?_⟩
  · simpa using mt State.isSupervisor_iff.mp hsup
  all_goals have hport := State.isSupervisor_iff.mpr hsup
  · simp [setLivenessBody, hport, portArg_eq_none.mpr hbad]
  intro timer
  have htimer : (s.taking p (.setLiveness p named timeout)).timerFor q timeout.toNat = timer := by
    have hholds : (s.taking p (.setLiveness p named timeout)).holdsAny q = s.holdsAny q := State.modPort_holdsAny s p _ q
    rw [State.timerFor_eq, hholds]
  have hflag : flagCode timer.isSome = if s.holdsAny q = true ∧ timeout ≠ 0 then 1 else 0 := by
    unfold timer
    split <;> rfl
  have hbody : setLivenessBody p named timeout (s.taking p (.setLiveness p named timeout)) =
      accept ((s.taking p (.setLiveness p named timeout)).modPort q fun v =>
        { v with timeout := timeout.toNat, timer := timer }) [named, timeout, flagCode timer.isSome] := by
    simp [setLivenessBody, hport, portArg_eq_some.mpr hq, htimer]
  obtain ⟨t, hans, hframe, hother, hown⟩ := answers_of_effect hcan rfl (c := .setLiveness p named timeout) hbody
  refine ⟨t, hflag ▸ hans, hframe, fun k hk => ?_, ?_⟩
  · rw [hother k hk, State.modPort_port, State.taking_port, if_neg hk]
  · rw [hown, State.modPort_port, State.taking_port, if_pos rfl]
    by_cases hpq : p = q <;> simp [hpq]

end Sys2Proof.Machine
end

section
/-! PROOFS. Requests that reach no block: CHECK, UNKNOWN and LENGTH, a LEN over 16, and the assertion of SSx. -/

set_option Elab.async false

namespace Sys2Proof.Machine

section request
variable {p : Port} {cmd len : Byte} {rest : List Byte} {s : State}

/-! The checks of R149 in their order, on CMD, LEN, LEN argument bytes and CHK. -/

theorem classifyRequest_check (hlen : len.toNat ≤ 16) (hrest : rest.length = len.toNat + 1)
    (hsum : byteSum (cmd :: len :: rest) ≠ 0) : classifyRequest p (cmd :: len :: rest) = .bad .check := by
  rw [classifyRequest, if_neg (Nat.not_lt.mpr hlen), if_neg (not_not.mpr hrest), if_pos hsum]

theorem classifyRequest_unknown (hlen : len.toNat ≤ 16) (hrest : rest.length = len.toNat + 1)
    (hsum : byteSum (cmd :: len :: rest) = 0) (hcmd : commandLength cmd = none) :
    classifyRequest p (cmd :: len :: rest) = .bad .unknown := by
  rw [classifyRequest, if_neg (Nat.not_lt.mpr hlen), if_neg (not_not.mpr hrest), if_neg (not_not.mpr hsum), hcmd]

theorem classifyRequest_length (hlen : len.toNat ≤ 16) (hrest : rest.length = len.toNat + 1)
    (hsum : byteSum (cmd :: len :: rest) = 0) {n : Nat} (hcmd : commandLength cmd = some n) (hne : n ≠ len.toNat) :
    classifyRequest p (cmd :: len :: rest) = .bad .length := by
  rw [classifyRequest, if_neg (Nat.not_lt.mpr hlen), if_neg (not_not.mpr hrest), if_neg (not_not.mpr hsum), hcmd]
  exact if_pos hne

/-- A wrong check byte is answered, and changes nothing but the transaction (R149). -/
theorem execBadRequest_check {bytes : List Byte} (h : CanTake s p) (hclass : classifyRequest p bytes = .bad .check) :
    ∃ t, Answers (.badRequest p bytes) p s t .check [] .none ∧ PortsOnly s t ∧
      Served p noRecords (s.port p).timer s t := by
  let u := s.modPort p fun q => { q with line := .holding bytes }
  refine ⟨(refuse u .check []).answer p, ⟨?_, answered_answer _ p⟩, rfl, fun q hq => ?_, ?_⟩
  · rw [exec, execBadRequest, State.ready_of_canTake h, if_pos rfl, hclass]
    rfl
  · simp [Reply.answer_port, refuse, u, hq, noRecords]
  · simp [Reply.answer_port, refuse, u, noRecords]

/-- UNKNOWN and LENGTH are answered, and restart the timer (R102, R149). -/
theorem execBadRequest_refuses {bytes : List Byte} {reason : BadReason} (h : CanTake s p)
    (hclass : classifyRequest p bytes = .bad reason) (hne : reason ≠ .check) :
    Refuses (.badRequest p bytes) p s (badResult reason) [] := by
  refine ⟨(refuse (s.received p bytes) (badResult reason) []).answer p, ⟨?_, answered_answer _ p⟩, rfl,
    fun q hq => ?_, ?_⟩
  · rw [exec, execBadRequest, State.ready_of_canTake h, if_pos rfl, hclass]
    cases reason with
    | check => exact absurd rfl hne
    | unknown => rfl
    | length => rfl
  · simp [Reply.answer_port, refuse, State.received, hq, noRecords]
  · simp [Reply.answer_port, refuse, State.received, noRecords, PortState.restarted]

end request

/-- Settles O14: each case of R149 by the bytes, a LEN over 16 (R148), and SSx going low (R147). -/
theorem requestsThatReachNoBlock : Obligations.RequestsThatReachNoBlock := by
  intro p cmd len rest s
  refine ⟨fun hcan => ⟨fun hlen hrest => ?_, fun hlen => ?_⟩, fun hop htxn => ?_⟩
  · intro bytes sum
    have hsum : sum = 0 ↔ byteSum bytes = 0 := by
      rw [show sum = (byteSum bytes).toNat from sum_toNat_mod bytes]
      exact BitVec.toNat_inj (y := 0#8)
    refine ⟨fun hbad => execBadRequest_check hcan (classifyRequest_check hlen hrest (mt hsum.mpr hbad)),
      fun hgood hcmd => ?_, fun hgood n hcmd hne => ?_⟩
    · exact execBadRequest_refuses hcan (classifyRequest_unknown hlen hrest (hsum.mp hgood) hcmd) nofun
    · exact execBadRequest_refuses hcan (classifyRequest_length hlen hrest (hsum.mp hgood) hcmd hne) nofun
  · refine ⟨s.modPort p fun q => { q with txn := .discard true, line := .holding [cmd, len] }, ?_, rfl,
      fun q hq => by rw [State.modPort_port, if_neg hq], by rw [State.modPort_port, if_pos rfl]⟩
    rw [exec, execMalformed, State.ready_of_canTake hcan, decide_eq_true hlen]
    rfl
  · have hstate : (s.operating && decide ((s.port p).txn = .deselected)) = true := by
      simp [State.operating, hop, htxn]
    refine ⟨_, if_pos hstate, rfl, fun q hq => ?_, ?_⟩
    · simp only [State.modPort_port, if_neg hq]
    · simp only [State.modPort_port, if_true]
      rfl

end Sys2Proof.Machine
end

section
/-! PROOFS. The liveness timers: what the law of R101 reads, and what each operation does to it.

Most operations leave the holders, the timeouts and whether each timer runs (`State.timerView`). A claim, a release, a
seizure, a new timeout and a loss of leases keep the law each for its own reason (`KeepsTimers`). -/

set_option Elab.async false

namespace Sys2Proof.Machine

/-! ### What the law of R101 reads -/

/-- The holders, and of each port whether its timer runs and its timeout. -/
def State.timerView (s : State) : (Item → Option Port) × (Port → Bool × Nat) :=
  (s.holder, fun p => ((s.port p).timer.isSome, (s.port p).timeout))

theorem State.timerView_eq_iff {s t : State} : t.timerView = s.timerView ↔ (∀ i, t.holder i = s.holder i) ∧
    ∀ p, (t.port p).timer.isSome = (s.port p).timer.isSome ∧ (t.port p).timeout = (s.port p).timeout := by
  simp [State.timerView, funext_iff]

/-- A port holds an item where it held one, if what it holds it held. -/
theorem State.holdsAny_mono {s t : State} {p : Port} (h : ∀ i, t.holder i = some p → s.holder i = some p)
    (ht : t.holdsAny p = true) : s.holdsAny p = true :=
  (State.holdsAny_iff s p).mpr (((State.holdsAny_iff t p).mp ht).imp h)

theorem State.holdsAny_congr {s t : State} {p : Port} (h : ∀ i, t.holder i = some p ↔ s.holder i = some p) :
    t.holdsAny p = s.holdsAny p :=
  Bool.eq_iff_iff.mpr ⟨State.holdsAny_mono fun i => (h i).mp, State.holdsAny_mono fun i => (h i).mpr⟩

/-- What `TimerLaw` asks of a port that holds an item or none (R101). -/
def PortState.TimerFollows (v : PortState) (holds : Bool) : Prop :=
  v.timer.isSome = true ↔ holds = true ∧ v.timeout ≠ 0

theorem timerLaw_iff {s : State} : TimerLaw s ↔ ∀ p, (s.port p).TimerFollows (s.holdsAny p) := Iff.rfl

/-- A port that comes to hold items: a STOPPED timer starts, unless the timeout is 0 (R101). -/
theorem PortState.TimerFollows.started {v : PortState} {held : Bool} (h : v.TimerFollows held) :
    PortState.TimerFollows
      { v with timer := if v.timeout ≠ 0 ∧ v.timer = none then some v.timeout else v.timer } true := by
  unfold PortState.TimerFollows at *
  cases ht : v.timer with
  | none => by_cases h0 : v.timeout = 0 <;> simp [h0]
  | some n => simpa [ht] using (h.mp (by rw [ht]; rfl)).2

/-- A port that comes to hold no item: its timer stops (R101). -/
theorem PortState.TimerFollows.stopped {v : PortState} {held holds : Bool} (h : v.TimerFollows held)
    (hkept : holds = true → held = true) :
    PortState.TimerFollows { v with timer := if holds = true then v.timer else none } holds := by
  cases holds with
  | false => simp [PortState.TimerFollows]
  | true => rwa [hkept rfl] at h

/-- A step that keeps the law of R101. -/
def KeepsTimers (s t : State) : Prop := TimerLaw s → TimerLaw t

namespace KeepsTimers

variable {s t u : State}

theorem of_view (h : t.timerView = s.timerView) : KeepsTimers s t := by
  obtain ⟨hholder, hports⟩ := State.timerView_eq_iff.mp h
  intro hs p
  obtain ⟨htimer, htimeout⟩ := hports p
  have hholds : t.holdsAny p = s.holdsAny p := State.holdsAny_congr fun i => by rw [hholder]
  rw [htimer, htimeout, hholds]
  exact hs p

theorem refl (s : State) : KeepsTimers s s := id

theorem trans (h : KeepsTimers s t) (k : KeepsTimers t u) : KeepsTimers s u := k ∘ h

theorem view (h : KeepsTimers s t) (k : u.timerView = t.timerView) : KeepsTimers s u := h.trans (of_view k)

theorem ite {P : Prop} [Decidable P] (ht : P → KeepsTimers s t) (hu : ¬P → KeepsTimers s u) :
    KeepsTimers s (if P then t else u) := by
  split
  · exact ht ‹_›
  · exact hu ‹_›

/-- Nothing is held and no timer runs. -/
theorem of_free (hholder : ∀ i, t.holder i = none) (htimer : ∀ p, (t.port p).timer = none) : KeepsTimers s t := by
  intro _ p
  have hnone : ¬t.holdsAny p = true := fun h => by
    obtain ⟨i, hi⟩ := (State.holdsAny_iff t p).mp h
    exact nomatch (hholder i).symm.trans hi
  simp [htimer p, hnone]

end KeepsTimers

/-! ### Operations that leave the view -/

section view
variable {s t : State}

theorem State.holder_of_tableView (h : t.tableView = s.tableView) (i : Item) : t.holder i = s.holder i := by
  obtain ⟨-, -, hleases⟩ := State.tableView_eq_iff.mp h
  exact (State.leaseView_eq_iff.mp hleases).1 i

/-- Records raised to the ports leave their timers. -/
theorem timerView_of_told {es : Port → List Event} (hholder : ∀ i, t.holder i = s.holder i) (ht : Told es s t) :
    t.timerView = s.timerView :=
  State.timerView_eq_iff.mpr ⟨hholder, fun p => by rw [ht p]; exact ⟨rfl, rfl⟩⟩

theorem timerView_of_table (h : t.tableView = s.tableView) (hports : t.ports = s.ports) : t.timerView = s.timerView :=
  State.timerView_eq_iff.mpr ⟨State.holder_of_tableView h, fun p => by
    rw [show t.port p = s.port p from congrArg (fun ports => PerPort.get ports p) hports]; exact ⟨rfl, rfl⟩⟩

variable (s)

theorem timerView_modPort (p : Port) {f : PortState → PortState}
    (hf : ∀ v, (f v).timer.isSome = v.timer.isSome ∧ (f v).timeout = v.timeout := by intro _; exact ⟨rfl, rfl⟩) :
    (s.modPort p f).timerView = s.timerView :=
  State.timerView_eq_iff.mpr ⟨fun i => State.modPort_holder s p f i, fun q => by
    rw [State.modPort_port]
    split
    · exact hf _
    · exact ⟨rfl, rfl⟩⟩

theorem timerView_modGroup (g : Group) {f : GroupState → GroupState}
    (hf : ∀ v, (f v).holder = v.holder := by intro _; rfl) : (s.modGroup g f).timerView = s.timerView :=
  timerView_of_table (tableView_modGroup s g hf) rfl

theorem timerView_modLeg (l : Leg) {f : LegState → LegState} (hf : ∀ v, (f v).holder = v.holder) :
    (s.modLeg l f).timerView = s.timerView :=
  State.timerView_eq_iff.mpr ⟨fun i => by
    cases i with
    | leg k =>
      simp only [State.holder, State.modLeg_leg]
      split
      · exact hf _
      · rfl
    | group g => rfl, fun _ => ⟨rfl, rfl⟩⟩

theorem timerView_modLegsOf (g : Group) {f : LegState → LegState}
    (hf : ∀ v, (f v).holder = v.holder ∧ (f v).group = v.group) : (s.modLegsOf g f).timerView = s.timerView :=
  timerView_of_table (tableView_modLegsOf s g hf) rfl

theorem timerView_raise (p : Port) (e : Event) : (s.raise p e).timerView = s.timerView :=
  timerView_of_told (s.raise_holder p e) (es := fun q => if q = p then [e] else []) fun q => s.raise_port p q e

theorem timerView_raiseAll (e : Event) : (s.raiseAll e).timerView = s.timerView :=
  timerView_of_told (s.raiseAll_holder e) (es := toAll e) fun q => s.raiseAll_port q e

theorem timerView_tickStart (g : Group) (first : Bool) (n : Nat) : (s.tickStart g first n).timerView = s.timerView :=
  timerView_of_table (tableView_tickStart s g first n) rfl

theorem timerView_enterStopped (g : Group) (why : GroupReason) : (s.enterStopped g why).timerView = s.timerView :=
  timerView_of_told (State.holder_of_tableView (tableView_enterStopped s g why)) (told_enterStopped s g why)

/-- A trip leaves the leases (R116). -/
theorem State.tripGroup_holder (g : Group) (c : Cause) (i : Item) : (s.tripGroup g c).holder i = s.holder i := by
  cases i with
  | leg l =>
    simp only [State.holder, State.tripGroup_leg]
    split
    · exact (LegState.toSafe_lease _).1
    · rfl
  | group k =>
    simp only [State.holder, State.tripGroup_group]
    repeat' split
    all_goals rfl

theorem timerView_tripGroups (pick : Group → Bool) (c : Cause) : (s.tripGroups pick c).timerView = s.timerView := by
  refine timerView_of_told (fun i => ?_) (State.tripGroups_told s pick c)
  unfold State.tripGroups
  cases pick .g0 <;> cases pick .g1 <;> simp [State.tripGroup_holder]

theorem timerView_assertInput (i : TripInput) : (s.assertInput i).timerView = s.timerView :=
  timerView_tripGroups (s.modInput i fun v => { v with filter := .asserted }) _ _

theorem timerView_takeDueSet (g : Group) (f : Frame) (c : ChangeSet) :
    (State.takeDueSet g f s c).timerView = s.timerView := by
  have hwrite : (s.writeEdits g c.edits).timerView = s.timerView :=
    timerView_of_table ((tableView_modGroup _ g fun v => by split <;> rfl).trans
      (tableView_mapLegs s fun _ v => by split <;> exact ⟨rfl, rfl⟩)) rfl
  unfold State.takeDueSet
  split
  · exact (timerView_raise _ _ _).trans hwrite
  · exact timerView_raise _ _ _

theorem timerView_commitFrame (g : Group) (f : Frame) : (s.commitFrame g f).timerView = s.timerView := by
  unfold State.commitFrame
  generalize s.dueSets g f = cs
  induction cs generalizing s with
  | nil => rfl
  | cons c cs ih => rw [List.foldl_cons, ih, timerView_takeDueSet]

theorem timerView_frameStart (g : Group) (first : Bool) : (s.frameStart g first).timerView = s.timerView := by
  rw [State.frameStart_eq, timerView_tickStart, timerView_modGroup, State.committed, timerView_commitFrame]
  exact timerView_modGroup s g

theorem timerView_endFrame (g : Group) : (s.endFrame g).timerView = s.timerView := by
  have hcount : (s.countFrame g).timerView = s.timerView := timerView_modGroup s g
  rw [State.endFrame_eq]
  split
  · exact (timerView_enterStopped _ _ _).trans hcount
  · split
    · exact (timerView_enterStopped _ _ _).trans hcount
    · exact (timerView_frameStart _ _ _).trans hcount

theorem timerView_startGroup (g : Group) : (s.startGroup g).timerView = s.timerView := by
  unfold State.startGroup
  split
  · split
    · exact (timerView_raiseAll _ _).trans (timerView_modGroup s g)
    · exact (timerView_raiseAll _ _).trans (timerView_frameStart s g true)
  · exact (timerView_raiseAll _ _).trans (timerView_modGroup s g)
  · rfl
  · rfl
  · rfl

theorem timerView_stopGroup (g : Group) (atEnd : Bool) : (s.stopGroup g atEnd).timerView = s.timerView := by
  unfold State.stopGroup
  split
  · rfl
  · rfl
  · exact timerView_enterStopped s g _
  · split
    · exact (timerView_raiseAll _ _).trans (timerView_modGroup s g)
    · exact timerView_enterStopped s g _
  · split
    · rfl
    · exact timerView_enterStopped s g _

theorem timerView_completeRead (p : Port) : (s.completeRead p).timerView = s.timerView := by
  have hread (f : PortState → PortState)
      (hf : ∀ v, (f v).timer.isSome = v.timer.isSome ∧ (f v).timeout = v.timeout) :
      (s.modPort p f).timerView = s.timerView := timerView_modPort s p hf
  unfold State.completeRead State.freeReported
  split
  · dsimp only
    split
    · split <;> exact hread _ fun _ => ⟨rfl, rfl⟩
    · exact hread _ fun _ => ⟨rfl, rfl⟩
  · exact hread _ fun _ => ⟨rfl, rfl⟩
  · rfl

end view

/-! ### Operations that move leases or timers -/

namespace KeepsTimers

variable {s t : State} {p : Port}

theorem claimed {mask : Byte} (hmask : mask ≠ 0) (hfree : ∀ i, inMask mask i = true → s.heldByOther p i = false) :
    KeepsTimers s (s.claimed p mask) := by
  refine fun hs => timerLaw_iff.mpr fun q => ?_
  rw [State.claimed_port s p mask hmask]
  by_cases hq : q = p
  · subst hq
    have hholds : (s.claimed q mask).holdsAny q = true := by
      obtain ⟨i, -, hi⟩ := exists_inMask mask hmask
      exact (State.holdsAny_iff _ q).mpr ⟨i, by rw [State.claimed_holder, if_pos hi]⟩
    rw [if_pos rfl, hholds]
    exact (timerLaw_iff.mp hs q).started
  · have hholds : (s.claimed p mask).holdsAny q = s.holdsAny q := State.holdsAny_congr fun i => by
      rw [State.claimed_holder]
      split
      · next hi => rcases State.not_heldByOther_iff.mp (hfree i hi) with h | h <;> simp [h, Ne.symm hq]
      · rfl
    rw [if_neg hq, hholds]
    exact hs q

theorem released {mask : Byte} (hheld : ∀ i, inMask mask i = true → s.holder i = some p) :
    KeepsTimers s (s.released p mask) := by
  refine fun hs => timerLaw_iff.mpr fun q => ?_
  rw [State.released_port]
  by_cases hq : q = p
  · subst hq
    rw [if_pos rfl]
    refine (timerLaw_iff.mp hs q).stopped (State.holdsAny_mono fun i hi => ?_)
    rw [State.released_holder] at hi
    split at hi
    · cases hi
    · exact hi
  · have hholds : (s.released p mask).holdsAny q = s.holdsAny q := State.holdsAny_congr fun i => by
      rw [State.released_holder]
      split
      · next hi => simp [hheld i hi, Ne.symm hq]
      · rfl
    rw [if_neg hq, hholds]
    exact hs q

theorem seized {mask : Byte} (hmask : mask ≠ 0) : KeepsTimers s (s.seized p mask) := by
  refine fun hs => timerLaw_iff.mpr fun q => ?_
  by_cases hq : q = p
  · subst hq
    have hholds : (s.seized q mask).holdsAny q = true := by
      obtain ⟨i, -, hi⟩ := exists_inMask mask hmask
      exact (State.holdsAny_iff _ q).mpr ⟨i, by rw [State.seized_holder, if_pos hi]⟩
    rw [State.seized_port_self s q mask hmask, hholds]
    exact (timerLaw_iff.mp hs q).started
  · rw [State.seized_port_other s p mask hq]
    refine PortState.TimerFollows.stopped (v := (s.port q).afterRecords _) (timerLaw_iff.mp hs q)
      (State.holdsAny_mono fun i hi => ?_)
    rw [State.seized_holder] at hi
    split at hi
    · exact absurd (Option.some.inj hi).symm hq
    · exact hi

/-- SET LIVENESS sets the timer of the named port by what it holds (R103). -/
theorem setLiveness (timeout : Nat) : KeepsTimers s (s.modPort p fun v =>
    { v with timeout := timeout, timer := s.timerFor p timeout }) := by
  intro hs q
  rw [State.modPort_holdsAny, State.modPort_port]
  by_cases hq : q = p
  · subst hq
    cases hholds : s.holdsAny q <;> by_cases h0 : timeout = 0 <;> simp [State.timerFor, hholds, h0]
  · rw [if_neg hq]
    exact hs q

/-- A port that loses all its leases with its timer stopped; the leases, timers and timeouts of the others stay. -/
theorem of_loss (hleg : ∀ l, t.leg l = lostLeg s p (s.leg l)) (hgroup : ∀ g, t.group g = lostGroup p (s.group g))
    (hown : (t.port p).timer = none)
    (hother : ∀ q, q ≠ p → (t.port q).timer = (s.port q).timer ∧ (t.port q).timeout = (s.port q).timeout) :
    KeepsTimers s t := by
  have hholder (i : Item) : t.holder i = if s.holder i = some p then none else s.holder i := by
    cases i with
    | leg l => by_cases h : (s.leg l).holder = some p <;> simp [State.holder, hleg, lostLeg, h]
    | group g => by_cases h : (s.group g).holder = some p <;> simp [State.holder, hgroup, lostGroup, h]
  intro hs q
  by_cases hq : q = p
  · subst hq
    have hnone : ¬t.holdsAny q = true := fun h => by
      obtain ⟨i, hi⟩ := (State.holdsAny_iff t q).mp h
      rw [hholder] at hi
      split at hi
      · cases hi
      · contradiction
    simp [hown, hnone]
  · have hholds : t.holdsAny q = s.holdsAny q := State.holdsAny_congr fun i => by
      rw [hholder]
      split
      · next hi => simp [hi, Ne.symm hq]
      · rfl
    obtain ⟨htimer, htimeout⟩ := hother q hq
    rw [htimer, htimeout, hholds]
    exact hs q

theorem expire (s : State) (p : Port) : KeepsTimers s (s.expire p) :=
  of_loss (s.expire_leg p) (s.expire_group p) (by rw [State.expire_port]; exact congrArg PortState.timer (if_pos rfl))
    fun q hq => by
      rw [State.expire_port]
      dsimp only
      rw [if_neg hq]
      exact ⟨rfl, rfl⟩

theorem resetPort (s : State) (p : Port) (bySupervisor : Bool) : KeepsTimers s (s.resetPort p bySupervisor) :=
  of_loss (s.resetPort_leg p bySupervisor) (s.resetPort_group p bySupervisor)
    (by rw [State.resetPort_port, if_pos rfl]; rfl)
    fun q hq => by rw [State.resetPort_port, if_neg hq]; exact ⟨rfl, rfl⟩

theorem resetDevice (s : State) (p : Port) : KeepsTimers s (s.resetDevice p) :=
  of_free (fun i => by
    cases i with
    | leg l => cases l <;> rfl
    | group g => cases g <;> rfl) fun q => by cases q <;> rfl

theorem enterReset (s : State) : KeepsTimers s s.enterReset :=
  of_free (fun i => by
    cases i with
    | leg l => cases l <;> rfl
    | group g => cases g <;> rfl) fun q => by cases q <;> rfl

theorem releaseSelect (s : State) (p : Port) (whole : Bool) : KeepsTimers s (s.releaseSelect p whole) := by
  have h0 : KeepsTimers s (s.modPort p PortState.release) := of_view (timerView_modPort s p)
  unfold State.releaseSelect State.endTxn
  refine ite (fun _ => ?_) fun _ => h0
  split
  · exact h0
  · exact h0.view (timerView_modPort _ p)
  · exact h0.view (timerView_modPort _ p)
  · exact h0.view (timerView_modPort _ p)
  · exact (h0.trans (resetPort _ p false)).view (timerView_modPort _ p)
  · exact (h0.trans (resetDevice _ p)).view (timerView_modPort _ p)
  · exact h0.view (timerView_modPort _ p)
  · exact (h0.trans (ite (fun _ => of_view (timerView_completeRead _ p)) fun _ => refl _)).view (timerView_modPort _ p)

end KeepsTimers

end Sys2Proof.Machine
end

section
/-! PROOFS. The commands of the ports: each is answered, a refusal leaves the state as its owner took it, and the law of the
liveness timers is kept. -/

set_option Elab.async false

namespace Sys2Proof.Machine

/-! ### What an owner gives back -/

/-- An owner that refuses leaves the state as it is (R149), and one that accepts keeps the law of R101. -/
structure Reply.Sound (r : Reply) (s : State) : Prop where
  refused : r.resp.result ≠ .ok → r.state = s
  timers : KeepsTimers s r.state

/-- An owner that moves no lease and no timer. -/
structure Reply.Plain (r : Reply) (s : State) : Prop where
  refused : r.resp.result ≠ .ok → r.state = s
  view : r.state.timerView = s.timerView

namespace Reply

variable {s : State} {r : Reply}

theorem Plain.sound (h : r.Plain s) : r.Sound s := ⟨h.refused, .of_view h.view⟩

theorem Plain.same (h : r.state = s) : r.Plain s := ⟨fun _ => h, by rw [h]⟩

theorem Plain.ok (hok : r.resp.result = .ok) (h : r.state.timerView = s.timerView) : r.Plain s :=
  ⟨fun hne => absurd hok hne, h⟩

theorem Sound.same (h : r.state = s) : r.Sound s := (Plain.same h).sound

theorem Sound.ok (hok : r.resp.result = .ok) (h : KeepsTimers s r.state) : r.Sound s := ⟨fun hne => absurd hok hne, h⟩

/-- A timer that an expiry left due runs still (R58, R65; log entry 20). -/
theorem Plain.leaveDue {before : State} {p : Port} {c : Instr} (h : r.Plain (before.taking p c)) (follows : Bool) :
    (r.leaveDue follows before p).Plain (before.taking p c) := by
  unfold Reply.leaveDue
  split
  · next hdue =>
    obtain ⟨hok, htimer, -⟩ := hdue
    refine ⟨fun hne => absurd hok hne, ?_⟩
    obtain ⟨hholder, hports⟩ := State.timerView_eq_iff.mp h.view
    refine State.timerView_eq_iff.mpr ⟨fun i => (State.modPort_holder _ p _ i).trans (hholder i), fun q => ?_⟩
    obtain ⟨hq, htimeout⟩ := hports q
    rw [State.modPort_port]
    split
    · next heq =>
      subst heq
      exact ⟨by simp [State.taking_port, PortState.restarted, htimer], htimeout⟩
    · exact ⟨hq, htimeout⟩
  · exact h

end Reply

/-! ### The owners that move no lease -/

section bodies
variable (p : Port) (s : State)

theorem portStatusBody_plain (named : Byte) : (portStatusBody p named s).Plain s := by
  unfold portStatusBody
  split
  · exact .same rfl
  · split
    · exact .ok rfl rfl
    · exact .same rfl

theorem setNotifyBody_plain (mask : Byte) : (setNotifyBody p mask s).Plain s := .ok rfl (timerView_modPort s p)

theorem deviceResetBody_plain : (deviceResetBody p s).Plain s := by
  unfold deviceResetBody
  split
  · exact .same rfl
  · exact .same rfl

theorem setFallbackBody_plain (item value : Byte) : (setFallbackBody p item value s).Plain s := by
  unfold setFallbackBody
  split
  · next i v _ _ =>
    split
    · refine .ok rfl ?_
      cases i with
      | leg l => exact timerView_modLeg s l fun _ => rfl
      | group g => exact timerView_modGroup s g
    · exact .same rfl
  · exact .same rfl

theorem openSetBody_plain (group : Byte) : (openSetBody p group s).Plain s := by
  unfold openSetBody
  split
  · exact .same rfl
  split
  · exact .same rfl
  split
  · exact .same rfl
  · exact .ok rfl rfl

theorem stageEdit_plain (c : ChangeSet) (e : Edit) : (stageEdit s c e).Plain s := by
  unfold stageEdit
  split
  · exact .same rfl
  · exact .ok rfl rfl

theorem stageLegBody_plain (leg : Byte) (record : RawPattern) : (stageLegBody p leg record s).Plain s := by
  unfold stageLegBody
  split
  · exact .same rfl
  split
  · exact .same rfl
  split
  · exact .same rfl
  split
  · exact .same rfl
  split
  · exact .same rfl
  · exact stageEdit_plain s _ _

theorem stageGroupBody_plain (group : Byte) (record : RawTiming) : (stageGroupBody p group record s).Plain s := by
  unfold stageGroupBody
  split
  · exact .same rfl
  split
  · exact .same rfl
  split
  · exact .same rfl
  split
  · exact .same rfl
  split
  · exact .same rfl
  · exact stageEdit_plain s _ _

theorem unstageBody_plain (item : Byte) : (unstageBody p item s).Plain s := by
  unfold unstageBody
  split
  · exact .same rfl
  split
  · exact .same rfl
  split
  · exact .same rfl
  · exact .ok rfl rfl

theorem abandonBody_plain : (abandonBody p s).Plain s := by
  unfold abandonBody
  split
  · exact .same rfl
  · exact .ok rfl rfl

theorem sealBody_plain (form : Byte) (value : Frame) : (sealBody p form value s).Plain s := by
  unfold sealBody
  split
  · exact .same rfl
  split
  · exact .same rfl
  dsimp only
  split
  · exact .same rfl
  split
  · exact .same rfl
  split
  · exact .same rfl
  split
  · exact .same rfl
  split
  · exact .same rfl
  split
  · exact .same rfl
  · exact .ok rfl rfl

theorem withdrawBody_plain (setId : Byte) : (withdrawBody p setId s).Plain s := by
  unfold withdrawBody
  split
  · exact .same rfl
  split
  · exact .ok rfl rfl
  · exact .same rfl

theorem ackSetBody_plain (setId : Byte) : (ackSetBody p setId s).Plain s := by
  unfold ackSetBody
  split
  · exact .same rfl
  split
  · exact .ok rfl rfl
  · exact .same rfl

theorem setStatusBody_plain (setId : Byte) : (setStatusBody p setId s).Plain s := by
  unfold setStatusBody
  split
  · exact .same rfl
  · exact .ok rfl rfl

theorem startBody_plain (group : Byte) : (startBody p group s).Plain s := by
  unfold startBody
  split
  · exact .same rfl
  split
  · exact .same rfl
  split
  · exact .same rfl
  split
  · exact .same rfl
  · exact .ok rfl (timerView_startGroup s _)

theorem stopBody_plain (group form : Byte) : (stopBody p group form s).Plain s := by
  unfold stopBody
  split
  · split
    · exact .same rfl
    split
    · exact .same rfl
    · exact .ok rfl (timerView_stopGroup s _ _)
  · exact .same rfl

theorem configureGroupBody_plain (group sync stopOutput : Byte) :
    (configureGroupBody p group sync stopOutput s).Plain s := by
  unfold configureGroupBody State.configure
  split
  · split
    · exact .same rfl
    split
    · exact .same rfl
    refine .ok rfl ?_
    dsimp only [accept]
    split
    · rw [timerView_modLegsOf _ _ (f := LegState.dropOutputs) fun _ => ⟨rfl, rfl⟩]
      exact timerView_modGroup s _
    · exact timerView_modGroup s _
  · exact .same rfl

theorem assignLegBody_plain (leg group : Byte) : (assignLegBody p leg group s).Plain s := by
  unfold assignLegBody
  split
  · exact .same rfl
  split
  · split
    · exact .same rfl
    split
    · exact .same rfl
    · refine .ok rfl ((timerView_of_table (tableView_forceOffLegs _ _) rfl).trans ?_)
      exact timerView_modLeg s _ fun _ => rfl
  · exact .same rfl

theorem tripBody_plain (mask : Byte) : (tripBody p mask s).Plain s := by
  unfold tripBody
  split
  · exact .same rfl
  split
  · exact .same rfl
  split
  · exact .same rfl
  · exact .ok rfl (timerView_tripGroups s _ _)

theorem clearTripBody_plain (group : Byte) : (clearTripBody p group s).Plain s := by
  unfold clearTripBody
  split
  · exact .same rfl
  split
  · exact .same rfl
  split
  · exact .same rfl
  split
  · exact .same rfl
  · refine .ok rfl ?_
    dsimp only [accept]
    rw [State.clearGroup, timerView_modLegsOf _ _ (f := fun v => { v.forceOff false with safeWait := none })
      fun v => LegState.forceOff_lease false v, timerView_raiseAll]
    exact timerView_modGroup s _

theorem timerView_mapInput (i : TripInput) (mask : PerGroup Bool) (time : Nat) :
    (s.mapInput i mask time).timerView = s.timerView := by
  unfold State.mapInput
  dsimp only
  split
  · rfl
  · split
    · exact timerView_assertInput _ i
    · rfl
  · exact timerView_tripGroups _ _ _

theorem mapTripBody_plain (input mask time : Byte) : (mapTripBody p input mask time s).Plain s := by
  unfold mapTripBody
  split
  · exact .same rfl
  split
  · exact .ok rfl (timerView_mapInput s _ _ _)
  · exact .same rfl

theorem setSafeBody_plain (leg levelA levelB delay : Byte) : (setSafeBody p leg levelA levelB delay s).Plain s := by
  unfold setSafeBody
  split
  · exact .same rfl
  split
  · split
    · exact .same rfl
    split
    · exact .same rfl
    · exact .ok rfl (timerView_modLeg s _ fun v => by split <;> rfl)
  · exact .same rfl

theorem readActiveBody_plain (item : Byte) : (readActiveBody item s).Plain s := by
  unfold readActiveBody
  split
  · exact .same rfl
  · exact .ok rfl rfl
  · exact .ok rfl rfl

theorem readPendingBody_plain (item : Byte) : (readPendingBody item s).Plain s := by
  unfold readPendingBody
  split
  · exact .same rfl
  split
  · exact .ok rfl rfl
  · exact .ok rfl rfl

/-! ### The owners that move leases or timers -/

theorem claimBody_sound (mask : Byte) : (claimBody p mask s).Sound s := by
  unfold claimBody
  split
  · exact .same rfl
  next hmask =>
  split
  · exact .same rfl
  next hfree =>
  refine .ok rfl (.claimed hmask fun i hi => ?_)
  simpa [hi] using List.find?_eq_none.mp hfree i (mem_allItems i)

theorem releaseBody_sound (mask : Byte) : (releaseBody p mask s).Sound s := by
  unfold releaseBody
  split
  · exact .same rfl
  split
  · exact .same rfl
  next hheld =>
  split
  · exact .same rfl
  refine .ok rfl (.released fun i hi => State.holds_iff.mp ?_)
  simpa [hi] using List.find?_eq_none.mp hheld i (mem_allItems i)

theorem seizeBody_sound (mask : Byte) : (seizeBody p mask s).Sound s := by
  cases hsup : s.isSupervisor p with
  | false =>
    rw [seizeBody, hsup]
    exact .same rfl
  | true =>
    by_cases hmask : mask = 0
    · rw [seizeBody, hsup, if_neg (by simp), if_pos hmask]
      exact .same rfl
    · rw [seizeBody_eq_accept hsup hmask]
      exact .ok rfl (.seized hmask)

theorem setLivenessBody_sound (named timeout : Byte) : (setLivenessBody p named timeout s).Sound s := by
  unfold setLivenessBody
  split
  · exact .same rfl
  split
  · exact .same rfl
  · exact .ok rfl (.setLiveness timeout.toNat)

theorem portResetBody_sound (named : Byte) : (portResetBody p named s).Sound s := by
  unfold portResetBody
  split
  · exact .same rfl
  split
  · exact .same rfl
  split
  · exact .ok rfl (.resetPort s _ true)
  · exact .same rfl

end bodies

/-! ### A command -/

/-- A command of a port whose owner is sound. -/
def SoundlyServed (c : Instr) (p : Port) (s : State) : Prop :=
  ∃ body, exec c s = serve p c body s ∧ (body (s.taking p c)).Sound (s.taking p c)

namespace SoundlyServed

variable {c : Instr} {p : Port} {s : State} {body : State → Reply}

theorem of_sound (hc : exec c s = serve p c body s) (h : ∀ v, (body v).Sound v) : SoundlyServed c p s :=
  ⟨body, hc, h _⟩

theorem of_plain (hc : exec c s = serve p c body s) (h : ∀ v, (body v).Plain v) : SoundlyServed c p s :=
  ⟨body, hc, (h _).sound⟩

/-- A STAGE or a SEAL. -/
theorem of_setWork (hc : exec c s = serveSetWork p c body s) (h : ∀ v, (body v).Plain v) : SoundlyServed c p s :=
  ⟨_, hc, ((h _).leaveDue _).sound⟩

end SoundlyServed

/-- Every command of a port is served, by its owner. -/
theorem soundlyServed : ∀ {c : Instr} {p : Port}, commandPort c = some p → ∀ s, SoundlyServed c p s
  | .identify p, _, rfl, _ => .of_plain (body := identifyBody p) rfl fun _ => .ok rfl rfl
  | .portStatus p named, _, rfl, _ => .of_plain rfl fun v => portStatusBody_plain p v named
  | .readEvent p, _, rfl, _ => .of_plain rfl fun v => .same (readEventBody_state p v)
  | .setNotify p mask, _, rfl, _ => .of_plain rfl fun v => setNotifyBody_plain p v mask
  | .portReset p named, _, rfl, _ => .of_sound rfl fun v => portResetBody_sound p v named
  | .deviceReset p, _, rfl, _ => .of_plain rfl fun v => deviceResetBody_plain p v
  | .claim p mask, _, rfl, _ => .of_sound rfl fun v => claimBody_sound p v mask
  | .release p mask, _, rfl, _ => .of_sound rfl fun v => releaseBody_sound p v mask
  | .seize p mask, _, rfl, _ => .of_sound rfl fun v => seizeBody_sound p v mask
  | .setFallback p item value, _, rfl, _ => .of_plain rfl fun v => setFallbackBody_plain p v item value
  | .setLiveness p named timeout, _, rfl, _ => .of_sound rfl fun v => setLivenessBody_sound p v named timeout
  | .readLeases _, _, rfl, _ => .of_plain (body := readLeasesBody) rfl fun _ => .ok rfl rfl
  | .openSet p group, _, rfl, _ => .of_plain rfl fun v => openSetBody_plain p v group
  | .stageLeg p leg record, _, rfl, _ => .of_setWork rfl fun v => stageLegBody_plain p v leg record
  | .stageGroup p group record, _, rfl, _ => .of_setWork rfl fun v => stageGroupBody_plain p v group record
  | .unstage p item, _, rfl, _ => .of_plain rfl fun v => unstageBody_plain p v item
  | .abandon p, _, rfl, _ => .of_plain rfl fun v => abandonBody_plain p v
  | .seal p form value, _, rfl, _ => .of_setWork rfl fun v => sealBody_plain p v form value
  | .withdraw p setId, _, rfl, _ => .of_plain rfl fun v => withdrawBody_plain p v setId
  | .ackSet p setId, _, rfl, _ => .of_plain rfl fun v => ackSetBody_plain p v setId
  | .setStatus p setId, _, rfl, _ => .of_plain rfl fun v => setStatusBody_plain p v setId
  | .start p group, _, rfl, _ => .of_plain rfl fun v => startBody_plain p v group
  | .stop p group form, _, rfl, _ => .of_plain rfl fun v => stopBody_plain p v group form
  | .configureGroup p group sync out, _, rfl, _ =>
    .of_plain rfl fun v => configureGroupBody_plain p v group sync out
  | .assignLeg p leg group, _, rfl, _ => .of_plain rfl fun v => assignLegBody_plain p v leg group
  | .trip p mask, _, rfl, _ => .of_plain rfl fun v => tripBody_plain p v mask
  | .clearTrip p group, _, rfl, _ => .of_plain rfl fun v => clearTripBody_plain p v group
  | .mapTrip p input mask time, _, rfl, _ => .of_plain rfl fun v => mapTripBody_plain p v input mask time
  | .setSafe p leg a b delay, _, rfl, _ => .of_plain rfl fun v => setSafeBody_plain p v leg a b delay
  | .readActive _ item, _, rfl, _ => .of_plain rfl fun v => readActiveBody_plain v item
  | .readPending _ item, _, rfl, _ => .of_plain rfl fun v => readPendingBody_plain v item
  | .readOutputs _, _, rfl, _ => .of_plain (body := readOutputsBody) rfl fun _ => .ok rfl rfl

/-- Settles O13: the owner of a command answers it, and leaves the state as it took it where it refuses. -/
theorem commandsAreAnsweredOrChangeNothing : Obligations.CommandsAreAnsweredOrChangeNothing := by
  intro c p s hport
  obtain ⟨body, hc, hsound⟩ := soundlyServed hport s
  refine ⟨fun hcan => ?_, fun hnot => hc.trans (serve_of_not_canTake hnot c body)⟩
  rcases hr : body (s.taking p c) with ⟨u, resp, after⟩
  rw [hr] at hsound
  refine ⟨_, resp.result, resp.data, after, ⟨hc.trans (serve_of_canTake hcan c body), ?_⟩, fun hne => ?_⟩
  · rw [hr]
    exact answered_answer _ p
  · rw [hr, show u = s.taking p c from hsound.refused hne]
    exact transactionOnly_of_same c resp after

end Sys2Proof.Machine
end

section
/-! PROOFS. Every step keeps the law of the liveness timers: the rows that are no command, and the idle step. -/

set_option Elab.async false

namespace Sys2Proof.Machine

namespace KeepsTimers

variable {s t : State}

/-! ### Rows -/

/-- A command: the good transaction restarts a timer that runs, and the owner keeps the law. -/
theorem command {c : Instr} {p : Port} (hport : commandPort c = some p) (h : exec c s = .next t) : KeepsTimers s t := by
  obtain ⟨body, hc, hsound⟩ := soundlyServed hport s
  rw [hc] at h
  by_cases hs : CanTake s p
  · rw [serve_of_canTake hs] at h
    cases h
    have htaken : KeepsTimers s (s.taking p c) :=
      of_view (timerView_modPort s p fun v => ⟨Option.isSome_map, rfl⟩)
    exact (htaken.trans hsound.timers).view (timerView_modPort _ p)
  · rw [serve_of_not_canTake hs] at h
    cases h
    exact refl s

theorem next {u : State} (h : (.next u : Host.Outcome State Fault Refusal) = .next t) (hu : KeepsTimers s u) :
    KeepsTimers s t := by
  cases h
  exact hu

/-- An event that the part takes in OPERATING alone. -/
theorem inOperation {f : State → State} (h : inOperation f s = .next t) (hf : KeepsTimers s (f s)) :
    KeepsTimers s t := by
  by_cases hs : s.condition = .operating
  · rw [inOperation_of_operating f hs] at h
    exact next h hf
  · rw [inOperation_of_not_operating f hs] at h
    exact next h (refl s)

theorem onRefclk {f : State → State} (h : onRefclk f s = .next t) (hf : KeepsTimers (clocked s) (f (clocked s))) :
    KeepsTimers s t :=
  inOperation h (trans (t := clocked s) (of_view rfl) hf)

theorem badRequest {p : Port} {bytes : List Byte} (h : execBadRequest p bytes s = .next t) : KeepsTimers s t := by
  unfold execBadRequest at h
  split at h
  · split at h
    · exact next h (of_view ((timerView_modPort _ p).trans (timerView_modPort s p)))
    · refine next h (of_view ((timerView_modPort _ p).trans (timerView_modPort s p fun v => ?_)))
      exact ⟨Option.isSome_map, rfl⟩
    all_goals exact next h (refl s)
  · exact next h (refl s)

theorem malformed {p : Port} {cmd len : Byte} (h : execMalformed p cmd len s = .next t) : KeepsTimers s t := by
  unfold execMalformed at h
  split at h
  · exact next h (of_view (timerView_modPort s p))
  · exact next h (refl s)

theorem selectAsserted {p : Port} (h : execSelectAsserted p s = .next t) : KeepsTimers s t := by
  have hpin : KeepsTimers s (s.modPort p fun q => { q with selectLow := true }) := of_view (timerView_modPort s p)
  unfold execSelectAsserted at h
  dsimp only at h
  split at h
  · exact next h (hpin.view (timerView_modPort _ p))
  · exact next h hpin

theorem fallbackHalt {g : Group} (h : execFallbackHalt g s = .next t) : KeepsTimers s t := by
  have hnotice : KeepsTimers s (s.modGroup g fun v => { v with haltNotices := v.haltNotices - 1 }) :=
    of_view (timerView_modGroup s g)
  refine inOperation h (ite (fun _ => refl s) fun _ => ite (fun _ => hnotice.view ?_) fun _ => hnotice)
  exact (timerView_raiseAll _ _).trans (timerView_modGroup _ g)

theorem tick {g : Group} (h : execTick g s = .next t) : KeepsTimers s t :=
  onRefclk h (ite (fun _ => of_view ((timerView_tickStart _ _ _ _).trans (timerView_modGroup _ g))) fun _ => refl _)

theorem frameEnd {g : Group} (h : execFrameEnd g s = .next t) : KeepsTimers s t :=
  onRefclk h (ite (fun _ => of_view (timerView_endFrame _ g)) fun _ => refl _)

theorem syncEdge {g : Group} {rising : Bool} (h : execSyncEdge g rising s = .next t) : KeepsTimers s t := by
  refine onRefclk h (ite (fun _ => refl _) fun _ => ?_)
  refine trans (t := (clocked s).modSync g (SyncState.recognise rising)) (of_view rfl) ?_
  refine ite (fun _ => of_view ?_) fun _ => ite (fun _ => of_view (timerView_endFrame _ g)) fun _ => refl _
  exact (timerView_raiseAll _ _).trans (timerView_frameStart _ g true)

theorem tripInputLow {i : TripInput} (h : execTripInputLow i s = .next t) : KeepsTimers s t := by
  refine trans (t := s.modInput i _) (of_view rfl) (inOperation h (ite (fun _ => ?_) fun _ => refl _))
  unfold State.sampleLow
  dsimp only
  split
  · exact ite (fun _ => of_view (timerView_assertInput _ i)) fun _ => of_view rfl
  · exact refl _
  · exact refl _

theorem tripInputQualified {i : TripInput} (h : execTripInputQualified i s = .next t) : KeepsTimers s t := by
  refine inOperation h ?_
  split
  · exact ite (fun _ => of_view (timerView_assertInput s i)) fun _ => refl s
  · exact refl s
  · exact refl s

theorem tripInputHigh {i : TripInput} (h : execTripInputHigh i s = .next t) : KeepsTimers s t :=
  trans (t := s.modInput i _) (of_view rfl) (inOperation h (ite (fun _ => of_view rfl) fun _ => refl _))

theorem clockLost (h : execClockLost s = .next t) : KeepsTimers s t :=
  inOperation h (ite (fun _ => refl s) fun _ => of_view
    ((timerView_tripGroups _ _ _).trans (timerView_raiseAll { s with monitor := .lost 0, refclkGap := 0 } _)))

theorem clockRestored (h : execClockRestored s = .next t) : KeepsTimers s t :=
  inOperation h (ite (fun _ => of_view (timerView_raiseAll { s with monitor := .present } _)) fun _ => refl s)

theorem enterStartUp (s : State) (straps : BitVec 2) : KeepsTimers s (s.enterStartUp straps) :=
  ite (fun _ => of_view rfl) fun _ => refl s

theorem startUpComplete (h : execStartUpComplete s = .next t) : KeepsTimers s t := by
  unfold execStartUpComplete at h
  split at h
  · refine next h (of_view (State.timerView_eq_iff.mpr ⟨fun i => by cases i <;> rfl, fun p => ?_⟩))
    cases p <;> exact ⟨rfl, rfl⟩
  · exact next h (refl s)

/-- A row that is no command. -/
theorem event : ∀ {c : Instr}, commandPort c = none → exec c s = .next t → KeepsTimers s t
  | .badRequest _ _, _, h => badRequest h
  | .malformed _ _ _, _, h => malformed h
  | .selectAsserted _, _, h => selectAsserted h
  | .selectReleased p whole, _, h => next h (releaseSelect s p whole)
  | .readEventCompleted p, _, h => inOperation (f := fun u => u.completeRead p) h (of_view (timerView_completeRead s p))
  | .portResetEffect p whole, _, h => next h (releaseSelect s p whole)
  | .deviceResetEffect p whole, _, h => next h (releaseSelect s p whole)
  | .livenessExpiry p, _, h => inOperation h (ite (fun _ => expire s p) fun _ => refl s)
  | .fallbackHalt _, _, h => fallbackHalt h
  | .tick _, _, h => tick h
  | .frameEnd _, _, h => frameEnd h
  | .syncEdge _ _, _, h => syncEdge h
  | .tripInputLow _, _, h => tripInputLow h
  | .tripInputQualified _, _, h => tripInputQualified h
  | .tripInputHigh _, _, h => tripInputHigh h
  | .safeWaitExpiry l, _, h => inOperation h (ite (fun _ => of_view (timerView_modLeg s l fun _ => rfl)) fun _ => refl s)
  | .clockLost, _, h => clockLost h
  | .restoreCountRestart, _, h => inOperation h (ite (fun _ => of_view rfl) fun _ => refl s)
  | .clockRestored, _, h => clockRestored h
  | .powerOn straps, _, h => next h (enterStartUp s straps)
  | .powerFail, _, h => next h (enterReset s)
  | .resetnAsserted, _, h => next h (enterReset s)
  | .resetnReleased straps, _, h => next h (enterStartUp s straps)
  | .startUpComplete, _, h => startUpComplete h

/-! ### The idle step -/

/-- A timer that counts down runs still, at 0 too (R101, R104). -/
theorem timerView_countTenth (s : State) : s.countTenth.timerView = s.timerView := by
  refine State.timerView_eq_iff.mpr ⟨fun i => ?_, fun p => ?_⟩
  · cases i with
    | leg l =>
      simp only [State.holder, State.countTenth_leg, State.countMicrosecond_leg]
      split <;> rfl
    | group g => rw [State.countTenth_frame]; rfl
  · rw [State.countTenth_port, State.countMicrosecond_port]
    split
    · exact ⟨by dsimp only; split <;> simp, rfl⟩
    · exact ⟨rfl, rfl⟩

theorem happen (s : State) (h : Happening) : KeepsTimers s (s.happen h) := by
  cases h with
  | oscillator => exact of_view (timerView_countTenth s)
  | refclk => exact of_view (timerView_of_table (State.happen_table s .refclk) rfl)
  | syncPin g high => exact of_view rfl
  | tripPin i low => exact of_view rfl
  | sck p high data =>
    refine of_view (timerView_modPort s p fun v => ?_)
    rw [PortState.clockLevel_frame]
    exact ⟨rfl, rfl⟩
  | notice g => exact of_view rfl

theorem idle (s : State) : KeepsTimers s s.idle :=
  ite (fun _ => trans (t := { s with choices := s.choices + 1 }) (of_view rfl) (happen _ _)) fun _ => refl s

end KeepsTimers

/-- Settles O10: a command keeps the law by its owner, and no other row moves a lease or a timer but an expiry and the
resets, which stop the timers with the leases they take. -/
theorem timersFollowLeases : Obligations.TimersFollowLeases := by
  intro s t hs h
  unfold step at h
  split at h
  · cases h
    exact KeepsTimers.idle s hs
  next c rest _ =>
  cases hport : commandPort c with
  | some p => exact KeepsTimers.command (s := { s with pending := rest }) hport h hs
  | none => exact KeepsTimers.event (s := { s with pending := rest }) hport h hs

end Sys2Proof.Machine
end

section
/-! PROOFS. Trip protection: CLEAR TRIP, MAP TRIP and SET SAFE, the trip inputs, and the end of a safe wait.

An input whose part changes while its cause reaches groups is one great event, `InputTrips`: MAP TRIP and the trip inputs are
both read from it. -/

set_option Elab.async false

namespace Sys2Proof.Machine

/-! ### Codes -/

theorem CauseSet.code_eq (c : CauseSet) : c.code = causesByte c := by
  obtain ⟨input0, input1, command, clock⟩ := c
  cases input0 <;> cases input1 <;> cases command <;> cases clock <;> rfl

theorem Filter.code_eq (f : Filter) : f.code = filterByte f := by cases f <;> rfl

theorem Monitor.code_eq (m : Monitor) : m.code = monitorByte m := by cases m <;> rfl

theorem Monitor.isLost_iff {m : Monitor} : m.isLost = true ↔ m ≠ .present := by cases m <;> simp [Monitor.isLost]

/-! ### CLEAR TRIP -/

/-- What blocks CLEAR TRIP (R120). -/
theorem State.clearBlocked_iff {s : State} {g : Group} : s.clearBlocked g = true ↔
    (∃ i, (s.input i).mask.get g = true ∧ (s.input i).filter = .asserted) ∨
      (s.group g).causes.clock = true ∧ s.monitor ≠ .present := by
  simp [State.clearBlocked, Monitor.isLost_iff, mem_allInputs]

theorem State.clearGroup_group (s : State) (g h : Group) : (s.clearGroup g).group h =
    if h = g then { s.group h with run := .stopped, tick := 0, division := 0, causes := CauseSet.empty }
    else s.group h := by
  rw [State.clearGroup, State.modLegsOf_group, State.raiseAll_group, State.modGroup_group]

theorem State.clearGroup_leg (s : State) (g : Group) (l : Leg) : (s.clearGroup g).leg l =
    if (s.leg l).group = g then { offLeg false (s.leg l) with safeWait := none } else s.leg l := by
  simp only [State.clearGroup, State.modLegsOf_leg, State.raiseAll_leg, State.modGroup_leg, LegState.forceOff_eq]

theorem State.clearGroup_frame (s : State) (g : Group) : s.clearGroup g = { s with
    ports := (s.clearGroup g).ports
    groups := (s.clearGroup g).groups
    legs := (s.clearGroup g).legs } := by
  rw [State.clearGroup, State.raiseAll_frame]
  rfl

theorem State.clearGroup_told (s : State) (g : Group) :
    Told (toAll (.groupState g .cleared (s.group g).fn)) s (s.clearGroup g) :=
  told_modGroup_raiseAll s g _ _

/-- CLEAR TRIP of the supervisor with a group named: R120's checks in order. -/
theorem clearTripBody_of_group {s : State} {p : Port} {group : Byte} {g : Group} (hport : s.isSupervisor p = true)
    (hg : groupArg group = some g) : clearTripBody p group s =
      if (s.group g).run ≠ .tripped then refuse s .groupState [runByte (s.group g).run]
      else if s.clearBlocked g = true then
        refuse s .tripActive [causesByte (s.group g).causes, filterByte (s.input .trip0).filter,
          filterByte (s.input .trip1).filter, monitorByte s.monitor]
      else accept (s.clearGroup g) [] := by
  simp only [clearTripBody, hport, hg, Bool.not_true, Bool.false_eq_true, if_false, RunState.code_eq, CauseSet.code_eq,
    Filter.code_eq, Monitor.code_eq, Bool.not_eq_true', ← Bool.not_eq_true, State.tripped_iff, Ne]

/-- Settles O49: the checks in R120's order, and the group STOPPED with its causes and safe waits gone. -/
theorem clearTripRestsTheGroup : Obligations.ClearTripRestsTheGroup := by
  intro p group s hcan
  refine ⟨fun hsup => refuses_of hcan rfl (if_pos ?_), fun hsup hbad => refuses_of hcan rfl ?_, fun hsup g hg => ?_⟩
  · simpa using mt State.isSupervisor_iff.mp hsup
  all_goals have hport := State.isSupervisor_iff.mpr hsup
  · simp [clearTripBody, hport, groupArg_eq_none.mpr hbad]
  have hbody := clearTripBody_of_group (s := s.taking p (.clearTrip p group)) hport (groupArg_eq_some.mpr hg)
  refine ⟨fun hrun => refuses_of hcan rfl (hbody.trans (if_pos hrun)), fun hrun hblocked => refuses_of hcan rfl ?_,
    fun hrun hfree => ?_⟩
  · exact hbody.trans ((if_neg (not_not.mpr hrun)).trans (if_pos (State.clearBlocked_iff.mpr hblocked)))
  · replace hbody := hbody.trans ((if_neg (not_not.mpr hrun)).trans (if_neg (mt State.clearBlocked_iff.mp hfree)))
    obtain ⟨t, hans, hframe, hserved⟩ := answers_of_told hcan rfl hbody (State.clearGroup_told _ g)
    refine ⟨t, hans, fun h => ?_, fun l => ?_, ?_, hserved⟩
    · rw [hframe]; exact State.clearGroup_group _ g h
    · rw [hframe]; exact State.clearGroup_leg _ g l
    · rw [hframe, State.clearGroup_frame]; rfl

/-! ### An input that changes, and the groups that its cause reaches -/

/-- The input has changed by `f`, its cause has reached the groups that a test picks, and nothing else has happened
(R112, R114, R116, R117). -/
structure InputTrips (i : TripInput) (f : InputState → InputState) (pick : Group → Bool) (s t : State) : Prop where
  inputs : ∀ k, t.input k = if k = i then f (s.input k) else s.input k
  trips : TrippedBy pick (inputCause i) s t
  frame : t = { s with ports := t.ports, groups := t.groups, legs := t.legs, inputs := t.inputs, sets := t.sets }
  told : Told (tripRecords s pick (inputCause i)) s t

theorem State.modInput_modInput (s : State) (i : TripInput) (f h : InputState → InputState) :
    (s.modInput i f).modInput i h = s.modInput i fun v => h (f v) := by cases i <;> rfl

/-- An update of an input depends on what it makes of the value that stands there. -/
theorem State.modInput_congr {s : State} {i : TripInput} {f h : InputState → InputState}
    (hfh : f (s.input i) = h (s.input i)) : s.modInput i f = s.modInput i h := by
  have hinputs : (s.modInput i f).inputs = (s.modInput i h).inputs := PerInput.ext_get fun k => by
    simp only [State.inputs_get, State.modInput_input]
    split
    · next hk => rw [hk, hfh]
    · rfl
  exact congrArg (fun x => { s with inputs := x }) hinputs

/-- The groups are tripped from the state with the input changed, which agrees with the one before in all that a trip
reads. -/
theorem State.tripGroups_inputTrips {s : State} (hlaw : InterlockLaw s) (i : TripInput) (f : InputState → InputState)
    (pick : Group → Bool) : InputTrips i f pick s ((s.modInput i f).tripGroups pick (inputCause i)) := by
  have hframe := State.tripGroups_frame (s.modInput i f) pick (inputCause i)
  obtain ⟨hgroups, hlegs, hsets⟩ := State.tripGroups_trippedBy (s.modInput i f) pick (inputCause i) hlaw
  refine ⟨fun k => ?_, ⟨hgroups, hlegs, hsets⟩, ?_, State.tripGroups_told (s.modInput i f) pick (inputCause i)⟩
  · rw [hframe]; exact State.modInput_input s i f k
  · rw [hframe]; rfl

/-- An input whose filter reaches ASSERTED (R112). -/
theorem State.assertInput_inputTrips {s : State} (hlaw : InterlockLaw s) (i : TripInput) :
    InputTrips i (fun v => { v with filter := .asserted }) (s.input i).mask.get s (s.assertInput i) :=
  State.tripGroups_inputTrips hlaw i _ _

/-- An input changed by `f` whose filter then reaches ASSERTED. -/
theorem State.modInput_assertInput_inputTrips {s : State} (hlaw : InterlockLaw s) (i : TripInput)
    (f : InputState → InputState) :
    InputTrips i (fun v => { f v with filter := .asserted }) (f (s.input i)).mask.get s
      ((s.modInput i f).assertInput i) := by
  rw [State.assertInput, State.modInput_modInput, State.modInput_input, if_pos rfl]
  exact State.tripGroups_inputTrips hlaw i _ _

/-! ### MAP TRIP -/

/-- The filter state of an input under a new filter time (R113). -/
def Filter.retimed (time : Nat) : Filter → Filter
  | .quiet => .quiet
  | .qualifying low => if time ≤ low then .asserted else .qualifying low
  | .asserted => .asserted

/-- An input under a new mask and filter time (R113, R114). -/
def InputState.remapped (mask : PerGroup Bool) (time : Nat) (v : InputState) : InputState :=
  { v with mask := mask, filterTime := time, filter := v.filter.retimed time }

/-- The groups that an input trips on account of a new mask and filter time (R113, R114). -/
def InputState.remapTrips (mask : PerGroup Bool) (time : Nat) (v : InputState) (g : Group) : Bool :=
  match v.filter with
  | .quiet => false
  | .qualifying low => decide (time ≤ low) && mask.get g
  | .asserted => mask.get g && !v.mask.get g

/-- MAP TRIP in each filter state (R113, R114). -/
theorem State.mapInput_inputTrips {s : State} (hlaw : InterlockLaw s) (i : TripInput) (mask : PerGroup Bool)
    (time : Nat) : InputTrips i (InputState.remapped mask time) ((s.input i).remapTrips mask time) s
      (s.mapInput i mask time) := by
  have hquiet {f : InputState → InputState} (hf : f (s.input i) = (s.input i).remapped mask time)
      (hpick : (s.input i).remapTrips mask time = fun _ => false) :
      InputTrips i (InputState.remapped mask time) ((s.input i).remapTrips mask time) s (s.modInput i f) := by
    rw [hpick, State.modInput_congr hf]
    exact State.tripGroups_inputTrips hlaw i _ fun _ => false
  unfold State.mapInput
  cases hfilter : (s.input i).filter with
  | quiet =>
    exact hquiet (by simp [InputState.remapped, Filter.retimed, hfilter])
      (by funext g; simp [InputState.remapTrips, hfilter])
  | qualifying low =>
    by_cases hlow : time ≤ low
    · have hpick : (s.input i).remapTrips mask time = mask.get := by
        funext g; simp [InputState.remapTrips, hfilter, hlow]
      obtain ⟨hinputs, htrips, hframe, htold⟩ :=
        State.modInput_assertInput_inputTrips hlaw i fun v => { v with mask := mask, filterTime := time }
      simp only [if_pos hlow, hpick]
      refine ⟨fun k => (hinputs k).trans ?_, htrips, hframe, htold⟩
      split
      · next hk => simp [hk, InputState.remapped, Filter.retimed, hfilter, hlow]
      · rfl
    · simp only [if_neg hlow]
      exact hquiet (by simp [InputState.remapped, Filter.retimed, hfilter, hlow])
        (by funext g; simp [InputState.remapTrips, hfilter, hlow])
  | asserted =>
    have hpick : (s.input i).remapTrips mask time = fun g => mask.get g && !(s.input i).mask.get g := by
      funext g; simp [InputState.remapTrips, hfilter]
    rw [hpick, State.modInput_congr (h := InputState.remapped mask time)
      (by simp [InputState.remapped, Filter.retimed, hfilter])]
    exact State.tripGroups_inputTrips hlaw i _ _

/-- A group mask is read bit by bit (R114). -/
theorem groupMask_get (mask : Byte) (g : Group) :
    PerGroup.get ⟨mask.getLsbD (groupNum .g0), mask.getLsbD (groupNum .g1)⟩ g = mask.getLsbD (groupNum g) := by
  cases g <;> rfl

theorem groupMaskArg_of_le {mask : Byte} (h : mask.toNat ≤ 3) :
    groupMaskArg mask = some ⟨mask.getLsbD (groupNum .g0), mask.getLsbD (groupNum .g1)⟩ := if_pos h

theorem groupMaskArg_of_lt {mask : Byte} (h : 3 < mask.toNat) : groupMaskArg mask = none := if_neg (Nat.not_le.mpr h)

/-- MAP TRIP of the supervisor with an input and a mask named (R114). -/
theorem mapTripBody_of_args {s : State} {p : Port} {input mask time : Byte} {i : TripInput} {m : PerGroup Bool}
    (hport : s.isSupervisor p = true) (hi : inputArg input = some i) (hm : groupMaskArg mask = some m) :
    mapTripBody p input mask time s = accept (s.mapInput i m time.toNat)
      [input, mask, time, filterByte ((s.mapInput i m time.toNat).input i).filter] := by
  simp only [mapTripBody, hport, hi, hm, Bool.not_true, Bool.false_eq_true, if_false, Filter.code_eq]

/-- Settles O50: the refusals, and the new map with the groups that it trips at once. -/
theorem mapTripReplacesTheMap : Obligations.MapTripReplacesTheMap := by
  intro p input mask time s hcan hlaw
  refine ⟨fun hsup => refuses_of hcan rfl (if_pos ?_), fun hsup hbad => refuses_of hcan rfl ?_,
    fun hsup i hinput hmask => ?_⟩
  · simpa using mt State.isSupervisor_iff.mp hsup
  all_goals have hport := State.isSupervisor_iff.mpr hsup
  · rcases hbad with hbad | hbad
    · simp [mapTripBody, hport, inputArg_eq_none.mpr hbad]
    · simp [mapTripBody, hport, groupMaskArg_of_lt hbad]
  intro new filter pick
  have hpick : (s.input i).remapTrips ⟨new .g0, new .g1⟩ time.toNat = pick := by
    funext g
    simp only [InputState.remapTrips, groupMask_get, new]
    rfl
  have htrips := State.mapInput_inputTrips (s := s.taking p (.mapTrip p input mask time)) hlaw i ⟨new .g0, new .g1⟩
    time.toNat
  obtain ⟨hinputs, ⟨hgroups, hlegs, hsets⟩, hrest, htold⟩ := hpick ▸ htrips
  have hbody := mapTripBody_of_args (s := s.taking p (.mapTrip p input mask time)) (time := time) hport
    (inputArg_eq_some.mpr hinput) (groupMaskArg_of_le hmask)
  rw [hinputs, if_pos rfl] at hbody
  obtain ⟨t, hans, hframe, hserved⟩ := answers_of_told hcan rfl hbody htold
  refine ⟨t, hans, fun k => ?_, ?_, ?_, hserved⟩
  · rw [hframe]
    refine (hinputs k).trans ?_
    split
    · next hk => subst hk; rfl
    · rfl
  · rw [hframe]; exact ⟨hgroups, hlegs, hsets⟩
  · rw [hframe, hrest]; rfl

/-! ### SET SAFE -/

/-- An output with an inactive safe level (R118). -/
theorem Output.drop_eq_safeOutput (delay : Nat) (o : Output) : o.drop = safeOutput false delay o := o.drop_eq

theorem Output.drop_not_active (o : Output) : o.drop.state ≠ .active := by
  rw [Output.drop_eq, inactiveAtOnce]
  exact nofun

/-- An output with an active safe level, against one that is not ACTIVE (R118). -/
theorem Output.engageSafe_eq {o other : Output} (h : other.state ≠ .active) (delay : Nat) :
    o.engageSafe delay other = safeOutput true delay o := by
  simp [Output.engageSafe, safeOutput, h]

/-- The output waits where a delay has to pass before it is ACTIVE (R118). -/
theorem safeOutput_waiting_iff (delay : Nat) (o : Output) :
    (safeOutput true delay o).state = .waiting ↔ delay ≠ 0 ∧ o.state ≠ .active := by
  by_cases ho : o.state = .active <;> by_cases hd : delay = 0 <;> simp [safeOutput, ho, hd]

/-- A leg that passes to its safe levels, of which at most one is active, from whatever state of its outputs: the output with
the inactive level is dropped first. -/
theorem LegState.toSafe_eq_of_levels {v : LegState} (hs : ¬(v.safeA = true ∧ v.safeB = true)) : v.toSafe = safeLeg v := by
  cases hA : v.safeA with
  | true =>
    have hB : v.safeB = false := by simpa [hA] using hs
    simp [LegState.toSafe, safeLeg, hA, hB, Output.engageSafe_eq v.outB.drop_not_active, safeOutput_waiting_iff,
      ← Output.drop_eq_safeOutput]
  | false =>
    cases hB : v.safeB with
    | true =>
      simp [LegState.toSafe, safeLeg, hA, hB, Output.engageSafe_eq v.outA.drop_not_active, safeOutput_waiting_iff,
        ← Output.drop_eq_safeOutput]
    | false => simp [LegState.toSafe, safeLeg, hA, hB, ← Output.drop_eq_safeOutput]

/-- The legs after SET SAFE with at most one level active (R119). -/
theorem State.setSafe_leg {a b : Bool} (hab : ¬(a = true ∧ b = true)) (s : State) (l k : Leg) (delay : Nat) :
    (s.setSafe l a b delay).leg k =
      if k = l then
        if (s.group (s.leg l).group).run = .tripped then
          safeLeg { s.leg l with safeA := a, safeB := b, safeDelay := delay }
        else { s.leg l with safeA := a, safeB := b, safeDelay := delay }
      else s.leg k := by
  rw [State.setSafe, State.modLeg_leg]
  refine ite_congr rfl (fun hk => ?_) fun _ => rfl
  subst hk
  simp only [State.tripped_iff]
  exact ite_congr rfl (fun _ => LegState.toSafe_eq_of_levels hab) fun _ => rfl

/-- A level byte of SET SAFE is 0 or 1, with 1 for active (R119). -/
theorem flagArg_of_level {b : Byte} (h : b.toNat ≤ 1) : flagArg b = some (decide (b = 1)) := by
  rcases flagArg_eq_some h with ⟨rfl, hflag⟩ | ⟨rfl, hflag⟩ <;> exact hflag

/-- SET SAFE of the supervisor with a leg and two levels named: R119's checks in order. -/
theorem setSafeBody_of_levels {s : State} {p : Port} {leg levelA levelB delay : Byte} {l : Leg}
    (hport : s.isSupervisor p = true) (hl : legArg leg = some l) (hA : levelA.toNat ≤ 1) (hB : levelB.toNat ≤ 1) :
    setSafeBody p leg levelA levelB delay s =
      if levelA = 1 ∧ levelB = 1 then refuse s .badArg []
      else if (s.group (s.leg l).group).run ≠ .stopped ∧ (s.group (s.leg l).group).run ≠ .tripped then
        refuse s .groupState []
      else accept (s.setSafe l (decide (levelA = 1)) (decide (levelB = 1)) delay.toNat) [leg, levelA, levelB, delay] := by
  simp only [setSafeBody, hport, hl, flagArg_of_level hA, flagArg_of_level hB, Bool.not_true, Bool.false_eq_true, if_false,
    Bool.and_eq_true, decide_eq_true_eq]

/-- SET SAFE with an argument out of range, or both levels active (R119). -/
theorem setSafeBody_of_bad {s : State} {p : Port} {leg levelA levelB delay : Byte} (hport : s.isSupervisor p = true)
    (hbad : 5 < leg.toNat ∨ 1 < levelA.toNat ∨ 1 < levelB.toNat ∨ levelA = 1 ∧ levelB = 1) :
    setSafeBody p leg levelA levelB delay s = refuse s .badArg [] := by
  rcases hbad with hbad | hbad | hbad | ⟨rfl, rfl⟩
  · simp [setSafeBody, hport, legArg_eq_none.mpr hbad]
  · simp [setSafeBody, hport, flagArg_eq_none.mpr hbad]
  · simp [setSafeBody, hport, flagArg_eq_none.mpr hbad]
  · cases hl : legArg leg with
    | none => simp [setSafeBody, hport, hl]
    | some l => exact (setSafeBody_of_levels hport hl (by decide) (by decide)).trans (if_pos ⟨rfl, rfl⟩)

/-- Settles O51: the refusals in R119's order, and the leg's values, which act at once in a TRIPPED group. -/
theorem setSafeReplacesTheValues : Obligations.SetSafeReplacesTheValues := by
  intro p leg levelA levelB delay s hcan
  refine ⟨fun hsup => refuses_of hcan rfl (if_pos ?_), fun hsup => ⟨fun hbad => refuses_of hcan rfl ?_,
    fun l hl hA hB hlevels => ?_⟩⟩
  · simpa using mt State.isSupervisor_iff.mp hsup
  all_goals have hport := State.isSupervisor_iff.mpr hsup
  · exact setSafeBody_of_bad hport hbad
  intro run v
  have hbody := setSafeBody_of_levels (s := s.taking p (.setSafe p leg levelA levelB delay)) (delay := delay) hport
    (legArg_eq_some.mpr hl) hA hB
  rw [if_neg hlevels] at hbody
  refine ⟨fun hrun => refuses_of hcan rfl (hbody.trans (if_pos ?_)), fun hrun => ?_⟩
  · change run ≠ .stopped ∧ run ≠ .tripped
    rcases hrun with h | h | h <;> simp [h]
  · have hrest : ¬(run ≠ .stopped ∧ run ≠ .tripped) := fun ⟨hstopped, htripped⟩ => hrun.elim hstopped htripped
    obtain ⟨t, hans, hframe, hserved⟩ := answers_of_accept hcan rfl (hbody.trans (if_neg hrest)) fun _ => rfl
    refine ⟨t, hans, fun k => ?_, ?_, hserved⟩
    · rw [hframe]
      exact State.setSafe_leg (by simpa using hlevels) _ l k delay.toNat
    · rw [hframe]; rfl

/-! ### The trip inputs -/

theorem State.sampleLow_eq (s : State) (i : TripInput) : s.sampleLow i =
    if (s.input i).filter = .quiet then
      if (s.input i).filterTime = 0 then s.assertInput i else s.modInput i fun v => { v with filter := .qualifying 0 }
    else s := by
  unfold State.sampleLow
  cases (s.input i).filter with
  | quiet => exact (if_pos rfl).symm
  | qualifying low => exact (if_neg nofun).symm
  | asserted => exact (if_neg nofun).symm

/-- TRIP_INPUT_LOW: the filter takes it at a sample in QUIET, and the pin alone moves otherwise (R112, R166). -/
theorem execTripInputLow_eq {s : State} {i : TripInput} (hop : s.condition = .operating) :
    exec (.tripInputLow i) s = .next (
      if s.hkoTenths = 0 ∧ (s.input i).filter = .quiet then
        if (s.input i).filterTime = 0 then (s.modInput i fun v => { v with pinLow := true }).assertInput i
        else s.modInput i fun v => { v with pinLow := true, filter := .qualifying 0 }
      else s.modInput i fun v => { v with pinLow := true }) := by
  refine (inOperation_of_operating (s := s.modInput i _) _ hop).trans (congrArg _ ?_)
  rw [atSample, State.modInput_hkoTenths, State.sampleLow_eq, State.modInput_modInput, State.modInput_input, if_pos rfl,
    ite_and]

/-- TRIP_INPUT_HIGH: the filter takes it at a sample, and the pin alone moves between two (R112, R166). -/
theorem execTripInputHigh_eq {s : State} {i : TripInput} (hop : s.condition = .operating) :
    exec (.tripInputHigh i) s = .next (
      if s.hkoTenths = 0 then s.modInput i fun v => { v with pinLow := false, filter := .quiet }
      else s.modInput i fun v => { v with pinLow := false }) := by
  refine (inOperation_of_operating (s := s.modInput i _) _ hop).trans (congrArg _ ?_)
  rw [atSample, State.modInput_hkoTenths, State.modInput_modInput]

/-- TRIP_INPUT_QUALIFIED in QUALIFYING (R112, R113). -/
theorem execTripInputQualified_of_qualifying {s : State} {i : TripInput} {low : Nat} (hop : s.condition = .operating)
    (h : (s.input i).filter = .qualifying low) :
    exec (.tripInputQualified i) s = .next (if (s.input i).filterTime ≤ low then s.assertInput i else s) := by
  rw [show exec (.tripInputQualified i) s = execTripInputQualified i s from rfl, execTripInputQualified,
    inOperation_of_operating _ hop, h]

/-- Settles O52: each row in each filter state, at a sample and between two. -/
theorem tripInputsQualifyAndTrip : Obligations.TripInputsQualifyAndTrip := by
  intro i s hop hlaw
  refine ⟨fun hsample hquiet htime => ?_, fun c hc => ?_, fun low hlow hshort => ?_, fun hsample => ?_, fun c low hc => ?_⟩
  · have hrow := (execTripInputLow_eq hop).trans (congrArg _ ((if_pos ⟨hsample, hquiet⟩).trans (if_neg htime)))
    exact ⟨_, hrow, State.modInput_input s i _, rfl⟩
  · rcases hc with ⟨rfl, hsample, hquiet, htime⟩ | ⟨rfl, low, hlow, htime⟩
    · have hrow := (execTripInputLow_eq hop).trans (congrArg _ ((if_pos ⟨hsample, hquiet⟩).trans (if_pos htime)))
      obtain ⟨hinputs, htrips, hframe, htold⟩ :=
        State.modInput_assertInput_inputTrips hlaw i fun v => { v with pinLow := true }
      exact ⟨_, hrow, fun k => by simpa using hinputs k, htrips, hframe, htold⟩
    · have hrow := (execTripInputQualified_of_qualifying hop hlow).trans (congrArg _ (if_pos htime))
      obtain ⟨hinputs, htrips, hframe, htold⟩ := State.assertInput_inputTrips hlaw i
      exact ⟨_, hrow, fun k => by simpa using hinputs k, htrips, hframe, htold⟩
  · rw [execTripInputQualified_of_qualifying hop hlow, if_neg (Nat.not_le.mpr hshort)]
  · exact ⟨_, (execTripInputHigh_eq hop).trans (congrArg _ (if_pos hsample)), State.modInput_input s i _, rfl⟩
  · rcases hc with ⟨rfl, rfl, hidle⟩ | ⟨rfl, rfl, hbetween⟩
    · have hrow := (execTripInputLow_eq hop).trans (congrArg _ (if_neg (not_and_or.mpr hidle)))
      exact ⟨_, hrow, State.modInput_input s i _, rfl⟩
    · exact ⟨_, (execTripInputHigh_eq hop).trans (congrArg _ (if_neg hbetween)), State.modInput_input s i _, rfl⟩

/-! ### The end of a safe wait -/

theorem execSafeWaitExpiry_eq {s : State} {l : Leg} (hop : s.condition = .operating) : exec (.safeWaitExpiry l) s =
    .next (if (s.leg l).safeWait = some 0 then s.modLeg l LegState.endSafeWait else s) :=
  inOperation_of_operating _ hop

/-- A safe wait that ends with safe level A active (R118). -/
theorem LegState.endSafeWait_of_safeA {v : LegState} (hA : v.safeA = true) (hB : v.safeB = false)
    (hwait : v.outA.state = .waiting) (hother : v.outB.state ≠ .active) :
    v.endSafeWait = { v with safeWait := none, outA := { v.outA with state := .active, count := 0 } } := by
  simp [LegState.endSafeWait, hA, hB, hwait, hother]

/-- A safe wait that ends with safe level B active (R118). -/
theorem LegState.endSafeWait_of_safeB {v : LegState} (hA : v.safeA = false) (hB : v.safeB = true)
    (hwait : v.outB.state = .waiting) (hother : v.outA.state ≠ .active) :
    v.endSafeWait = { v with safeWait := none, outB := { v.outB with state := .active, count := 0 } } := by
  simp [LegState.endSafeWait, hA, hB, hwait, hother]

/-- Settles O53: at most one safe level is active, so the other output is left as it is. -/
theorem safeWaitEndsInActive : Obligations.SafeWaitEndsInActive := by
  intro l s hop hlaw
  obtain ⟨-, hlevels⟩ := hlaw l
  refine ⟨fun hwait => ?_, fun hwait => ⟨_, execSafeWaitExpiry_eq hop, ?_⟩⟩
  · rw [execSafeWaitExpiry_eq hop, if_neg hwait]
  · rw [if_pos hwait]
    refine ⟨rfl, fun k hk => ?_, fun hA hout hother => ?_, fun hB hout hother => ?_⟩
    · rw [State.modLeg_leg, if_neg hk]
    · have hB : (s.leg l).safeB = false := by simpa [hA] using hlevels
      rw [State.modLeg_leg, if_pos rfl, LegState.endSafeWait_of_safeA hA hB hout hother]
    · have hA : (s.leg l).safeA = false := by simpa [hB] using hlevels
      rw [State.modLeg_leg, if_pos rfl, LegState.endSafeWait_of_safeB hA hB hout hother]

end Sys2Proof.Machine
end

section
/-! PROOFS. The event queues: no step fills one past 12 records, and SET NOTIFY with the ATTN line that it governs.

A queue grows by the records raised to its port alone, and none joins a full one (R126, R129). So each operation leaves
every queue with at most 12 records or with no more than it had (`QueuesFit`), whatever state it finds. -/

set_option Elab.async false

namespace Sys2Proof.Machine

/-! ### What an operation does to the lengths of the queues -/

/-- Records raised to a port never take its queue past 12 (R126, R129). -/
theorem PortState.afterRecords_queue_length (q : PortState) (es : List Event) :
    (q.afterRecords es).queue.length ≤ max 12 q.queue.length := by
  have h : (q.afterRecords es).queue.length = q.queue.length + min (12 - q.queue.length) es.length := by
    simp [PortState.afterRecords]
  omega

/-- Each queue holds at most 12 records, or no more than it held before. -/
def QueuesFit (s t : State) : Prop := ∀ q, (t.port q).queue.length ≤ max 12 (s.port q).queue.length

theorem QueuesFit.queueLaw {s t : State} (h : QueuesFit s t) (hs : QueueLaw s) : QueueLaw t :=
  fun q => (h q).trans (max_le le_rfl (hs q))

namespace QueuesFit

variable {s t u : State}

theorem of_le (h : ∀ q, (t.port q).queue.length ≤ (s.port q).queue.length) : QueuesFit s t :=
  fun q => (h q).trans (le_max_right _ _)

theorem of_queues (h : ∀ q, (t.port q).queue = (s.port q).queue) : QueuesFit s t :=
  of_le fun q => (congrArg List.length (h q)).le

theorem of_ports (h : t.ports = s.ports) : QueuesFit s t :=
  of_queues fun q => congrArg (fun ports => (PerPort.get ports q).queue) h

theorem refl (s : State) : QueuesFit s s := of_ports rfl

theorem trans (h : QueuesFit s t) (k : QueuesFit t u) : QueuesFit s u :=
  fun q => (k q).trans (max_le (le_max_left _ _) (h q))

/-- Records raised to the ports. -/
theorem of_told {es : Port → List Event} (h : Told es s t) : QueuesFit s t := fun q => by
  rw [h q]
  exact PortState.afterRecords_queue_length _ _

/-- No port has a record. -/
theorem of_empty (h : ∀ q, (t.port q).queue = []) : QueuesFit s t := of_le fun q => by simp [h q]

theorem ite {P : Prop} [Decidable P] (ht : P → QueuesFit s t) (hu : ¬P → QueuesFit s u) :
    QueuesFit s (if P then t else u) := by
  split
  · exact ht ‹_›
  · exact hu ‹_›

/-- A change of one port that adds nothing to its queue. -/
theorem modPort (h : QueuesFit s t) (p : Port) {f : PortState → PortState}
    (hf : ∀ v, (f v).queue.length ≤ v.queue.length := by intro _; exact le_rfl) : QueuesFit s (t.modPort p f) :=
  h.trans <| of_le fun q => by
    rw [State.modPort_port]
    split
    · exact hf _
    · exact le_rfl

theorem raise (h : QueuesFit s t) (p : Port) (e : Event) : QueuesFit s (t.raise p e) :=
  h.trans (of_told (es := fun q => if q = p then [e] else []) fun q => State.raise_port t p q e)

theorem raiseAll (h : QueuesFit s t) (e : Event) : QueuesFit s (t.raiseAll e) :=
  h.trans (of_told (es := toAll e) fun q => State.raiseAll_port t q e)

/-! ### Frames and trips -/

theorem enterStopped (s : State) (g : Group) (why : GroupReason) : QueuesFit s (s.enterStopped g why) :=
  of_told (told_enterStopped s g why)

theorem takeDueSet (g : Group) (f : Frame) (s : State) (c : ChangeSet) : QueuesFit s (State.takeDueSet g f s c) := by
  unfold State.takeDueSet
  split
  · exact raise (of_ports rfl) _ _
  · exact raise (of_ports rfl) _ _

theorem commitFrame (s : State) (g : Group) (f : Frame) : QueuesFit s (s.commitFrame g f) := by
  unfold State.commitFrame
  generalize s.dueSets g f = cs
  induction cs generalizing s with
  | nil => exact refl s
  | cons c cs ih => exact (takeDueSet g f s c).trans (ih _)

theorem frameStart (s : State) (g : Group) (first : Bool) : QueuesFit s (s.frameStart g first) := by
  have hcommit : QueuesFit s (s.committed g) := trans (t := s.advanceFrame g) (of_ports rfl) (commitFrame _ g _)
  exact hcommit.trans (of_queues fun q => by rw [State.frameStart_port])

theorem endFrame (s : State) (g : Group) : QueuesFit s (s.endFrame g) := by
  rw [State.endFrame_eq]
  refine trans (t := s.countFrame g) (of_ports rfl) (ite (fun _ => enterStopped _ g _) fun _ => ?_)
  exact ite (fun _ => enterStopped _ g _) fun _ => frameStart _ g _

theorem startGroup (s : State) (g : Group) : QueuesFit s (s.startGroup g) := by
  unfold State.startGroup
  split
  · exact ite (fun _ => raiseAll (of_ports rfl) _) fun _ => (frameStart s g true).raiseAll _
  · exact raiseAll (of_ports rfl) _
  · exact refl s
  · exact refl s
  · exact refl s

theorem stopGroup (s : State) (g : Group) (atEnd : Bool) : QueuesFit s (s.stopGroup g atEnd) := by
  unfold State.stopGroup
  split
  · exact refl s
  · exact refl s
  · exact enterStopped s g _
  · exact ite (fun _ => raiseAll (of_ports rfl) _) fun _ => enterStopped s g _
  · exact ite (fun _ => refl s) fun _ => enterStopped s g _

theorem tripGroups (s : State) (pick : Group → Bool) (c : Cause) : QueuesFit s (s.tripGroups pick c) :=
  of_told (State.tripGroups_told s pick c)

theorem assertInput (s : State) (i : TripInput) : QueuesFit s (s.assertInput i) :=
  trans (t := s.modInput i fun v => { v with filter := .asserted }) (of_ports rfl) (tripGroups _ _ _)

theorem mapInput (s : State) (i : TripInput) (mask : PerGroup Bool) (time : Nat) :
    QueuesFit s (s.mapInput i mask time) := by
  refine trans (t := s.modInput i fun v => { v with mask := mask, filterTime := time }) (of_ports rfl) ?_
  unfold State.mapInput
  split
  · exact refl _
  · exact ite (fun _ => assertInput _ i) fun _ => refl _
  · exact tripGroups _ _ _

/-! ### Leases, completed reads and resets -/

theorem claimed (s : State) (p : Port) {mask : Byte} (hmask : mask ≠ 0) : QueuesFit s (s.claimed p mask) :=
  of_queues fun q => by
    rw [State.claimed_port s p mask hmask]
    split <;> rfl

theorem released (s : State) (p : Port) (mask : Byte) : QueuesFit s (s.released p mask) := of_queues fun q => by
  rw [State.released_port]
  split <;> rfl

theorem seized (s : State) (p : Port) {mask : Byte} (hmask : mask ≠ 0) : QueuesFit s (s.seized p mask) := fun q => by
  by_cases hq : q = p
  · subst hq
    rw [State.seized_port_self s q mask hmask]
    exact le_max_right _ _
  · rw [State.seized_port_other s p mask hq]
    exact PortState.afterRecords_queue_length _ _

theorem expire (s : State) (p : Port) : QueuesFit s (s.expire p) := fun q => by
  rw [State.expire_port]
  dsimp only
  split
  · next hq =>
    rw [hq]
    exact PortState.afterRecords_queue_length _ _
  · exact PortState.afterRecords_queue_length _ _

theorem resetPort (s : State) (p : Port) (bySupervisor : Bool) : QueuesFit s (s.resetPort p bySupervisor) := fun q => by
  rw [State.resetPort_port]
  split
  · exact (PortState.afterRecords_queue_length _ _).trans (max_le (le_max_left _ _) (Nat.zero_le _))
  · exact PortState.afterRecords_queue_length _ _

/-- The completion of a READ EVENT removes the record it returned, or none (R130, R131). -/
theorem completeRead (s : State) (p : Port) : QueuesFit s (s.completeRead p) := by
  unfold State.completeRead State.freeReported
  split
  · next resp _ =>
    have htail :
        QueuesFit s (s.modPort p fun q => { q with queue := q.queue.tail, txn := .response resp .completed }) :=
      (refl s).modPort p fun v => by simp
    dsimp only
    split
    · exact ite (fun _ => htail.trans (of_ports rfl)) fun _ => htail
    · exact htail
  · exact (refl s).modPort p
  · exact refl s

theorem resetDevice (s : State) (p : Port) : QueuesFit s (s.resetDevice p) := of_empty fun q => by cases q <;> rfl

theorem enterReset (s : State) : QueuesFit s s.enterReset := of_empty fun q => by cases q <;> rfl

theorem releaseSelect (s : State) (p : Port) (whole : Bool) : QueuesFit s (s.releaseSelect p whole) := by
  have h0 : QueuesFit s (s.modPort p PortState.release) := (refl s).modPort p
  unfold State.releaseSelect State.endTxn
  refine ite (fun _ => ?_) fun _ => h0
  split
  · exact h0
  · exact h0.modPort p
  · exact h0.modPort p
  · exact h0.modPort p
  · exact (h0.trans (resetPort _ p false)).modPort p
  · exact (h0.trans (resetDevice _ p)).modPort p
  · exact h0.modPort p
  · exact (h0.trans (ite (fun _ => completeRead _ p) fun _ => refl _)).modPort p

end QueuesFit

/-! ### The owners of the commands -/

section bodies
variable (p : Port) (s : State)

theorem portStatusBody_ports (named : Byte) : (portStatusBody p named s).state.ports = s.ports := by
  unfold portStatusBody
  repeat' split
  all_goals rfl

theorem deviceResetBody_ports : (deviceResetBody p s).state.ports = s.ports := by
  unfold deviceResetBody
  split <;> rfl

theorem setFallbackBody_ports (item value : Byte) : (setFallbackBody p item value s).state.ports = s.ports := by
  unfold setFallbackBody
  split
  · split
    · rw [accept, State.setItemFallback_frame]
    · rfl
  · rfl

theorem openSetBody_ports (group : Byte) : (openSetBody p group s).state.ports = s.ports := by
  unfold openSetBody
  repeat' split
  all_goals rfl

theorem stageEdit_ports (c : ChangeSet) (e : Edit) : (stageEdit s c e).state.ports = s.ports := by
  unfold stageEdit
  split <;> rfl

theorem stageLegBody_ports (leg : Byte) (record : RawPattern) :
    (stageLegBody p leg record s).state.ports = s.ports := by
  unfold stageLegBody
  split
  · rfl
  split
  · rfl
  split
  · rfl
  split
  · rfl
  split
  · rfl
  exact stageEdit_ports s _ _

theorem stageGroupBody_ports (group : Byte) (record : RawTiming) :
    (stageGroupBody p group record s).state.ports = s.ports := by
  unfold stageGroupBody
  split
  · rfl
  split
  · rfl
  split
  · rfl
  split
  · rfl
  split
  · rfl
  exact stageEdit_ports s _ _

theorem unstageBody_ports (item : Byte) : (unstageBody p item s).state.ports = s.ports := by
  unfold unstageBody
  repeat' split
  all_goals rfl

theorem abandonBody_ports : (abandonBody p s).state.ports = s.ports := by
  unfold abandonBody
  split <;> rfl

theorem sealBody_ports (form : Byte) (value : Frame) : (sealBody p form value s).state.ports = s.ports := by
  unfold sealBody
  dsimp only
  repeat' split
  all_goals rfl

theorem withdrawBody_ports (setId : Byte) : (withdrawBody p setId s).state.ports = s.ports := by
  unfold withdrawBody
  repeat' split
  all_goals rfl

theorem ackSetBody_ports (setId : Byte) : (ackSetBody p setId s).state.ports = s.ports := by
  unfold ackSetBody
  repeat' split
  all_goals rfl

theorem setStatusBody_ports (setId : Byte) : (setStatusBody p setId s).state.ports = s.ports := by
  unfold setStatusBody
  split <;> rfl

theorem configureGroupBody_ports (group sync stopOutput : Byte) :
    (configureGroupBody p group sync stopOutput s).state.ports = s.ports := by
  unfold configureGroupBody State.configure
  repeat' split
  all_goals rfl

theorem assignLegBody_ports (leg group : Byte) : (assignLegBody p leg group s).state.ports = s.ports := by
  unfold assignLegBody
  repeat' split
  all_goals rfl

theorem setSafeBody_ports (leg levelA levelB delay : Byte) :
    (setSafeBody p leg levelA levelB delay s).state.ports = s.ports := by
  unfold setSafeBody
  repeat' split
  all_goals rfl

theorem readActiveBody_ports (item : Byte) : (readActiveBody item s).state.ports = s.ports := by
  unfold readActiveBody
  split <;> rfl

theorem readPendingBody_ports (item : Byte) : (readPendingBody item s).state.ports = s.ports := by
  unfold readPendingBody
  repeat' split
  all_goals rfl

end bodies

/-! ### The rows -/

namespace QueuesFit

variable {s t : State}

/-- A command taken on a port: what its owner does to the queues is what the step does. -/
theorem serve {p : Port} {c : Instr} {body : State → Reply} (h : serve p c body s = .next t)
    (hb : ∀ v, QueuesFit v (body v).state) : QueuesFit s t := by
  by_cases hs : CanTake s p
  · rw [serve_of_canTake hs] at h
    cases h
    exact (trans (t := s.taking p c) (of_queues (s.taking_queue p c)) (hb _)).modPort p
  · rw [serve_of_not_canTake hs] at h
    cases h
    exact refl s

/-- A command whose owner leaves the ports as it took them. -/
theorem serve_ports {p : Port} {c : Instr} {body : State → Reply} (h : Machine.serve p c body s = .next t)
    (hb : ∀ v, (body v).state.ports = v.ports) : QueuesFit s t := serve h fun v => of_ports (hb v)

theorem serveSetWork {p : Port} {c : Instr} {body : State → Reply} (h : serveSetWork p c body s = .next t)
    (hb : ∀ v, (body v).state.ports = v.ports) : QueuesFit s t := by
  refine serve h fun v => (of_ports (hb v)).trans (of_queues fun q => ?_)
  rw [Reply.leaveDue_port]
  split <;> rfl

theorem next {u : State} (h : (.next u : Host.Outcome State Fault Refusal) = .next t) (hu : QueuesFit s u) :
    QueuesFit s t := by
  cases h
  exact hu

theorem inOperation {f : State → State} (h : inOperation f s = .next t) (hf : QueuesFit s (f s)) : QueuesFit s t := by
  by_cases hs : s.condition = .operating
  · rw [inOperation_of_operating f hs] at h
    exact next h hf
  · rw [inOperation_of_not_operating f hs] at h
    exact next h (refl s)

theorem onRefclk {f : State → State} (h : onRefclk f s = .next t) (hf : QueuesFit (clocked s) (f (clocked s))) :
    QueuesFit s t := inOperation h (trans (t := clocked s) (of_ports rfl) hf)

/-! #### The commands that raise records or change a port -/

theorem portResetBody (p : Port) (named : Byte) (s : State) : QueuesFit s (portResetBody p named s).state := by
  unfold Machine.portResetBody
  split
  · exact refl s
  split
  · exact refl s
  split
  · exact resetPort s _ true
  · exact refl s

theorem claimBody (p : Port) (mask : Byte) (s : State) : QueuesFit s (claimBody p mask s).state := by
  unfold Machine.claimBody
  split
  · exact refl s
  next hmask =>
  split
  · exact refl s
  · exact claimed s p hmask

theorem releaseBody (p : Port) (mask : Byte) (s : State) : QueuesFit s (releaseBody p mask s).state := by
  unfold Machine.releaseBody
  split
  · exact refl s
  split
  · exact refl s
  split
  · exact refl s
  · exact released s p mask

theorem seizeBody (p : Port) (mask : Byte) (s : State) : QueuesFit s (seizeBody p mask s).state := by
  unfold Machine.seizeBody
  split
  · exact refl s
  split
  · exact refl s
  next hmask => exact seized s p hmask

theorem setLivenessBody (p : Port) (named timeout : Byte) (s : State) :
    QueuesFit s (setLivenessBody p named timeout s).state := by
  unfold Machine.setLivenessBody
  split
  · exact refl s
  split
  · exact refl s
  · exact (refl s).modPort _

theorem startBody (p : Port) (group : Byte) (s : State) : QueuesFit s (startBody p group s).state := by
  unfold Machine.startBody
  split
  · exact refl s
  split
  · exact refl s
  split
  · exact refl s
  split
  · exact refl s
  · exact startGroup s _

theorem stopBody (p : Port) (group form : Byte) (s : State) : QueuesFit s (stopBody p group form s).state := by
  unfold Machine.stopBody
  split
  · split
    · exact refl s
    split
    · exact refl s
    · exact stopGroup s _ _
  · exact refl s

theorem tripBody (p : Port) (mask : Byte) (s : State) : QueuesFit s (tripBody p mask s).state := by
  unfold Machine.tripBody
  split
  · exact refl s
  split
  · exact refl s
  split
  · exact refl s
  · exact tripGroups s _ _

theorem clearTripBody (p : Port) (group : Byte) (s : State) : QueuesFit s (clearTripBody p group s).state := by
  unfold Machine.clearTripBody
  split
  · exact refl s
  split
  · exact refl s
  split
  · exact refl s
  split
  · exact refl s
  · exact of_told (State.clearGroup_told s _)

theorem mapTripBody (p : Port) (input mask time : Byte) (s : State) :
    QueuesFit s (mapTripBody p input mask time s).state := by
  unfold Machine.mapTripBody
  split
  · exact refl s
  split
  · exact mapInput s _ _ _
  · exact refl s

/-- A command of a port. -/
theorem command : ∀ {c : Instr} {p : Port}, commandPort c = some p → exec c s = .next t → QueuesFit s t
  | .identify _, _, _, h => serve_ports h fun _ => rfl
  | .portStatus p named, _, _, h => serve_ports h fun v => portStatusBody_ports p v named
  | .readEvent p, _, _, h => serve_ports h fun v => congrArg State.ports (readEventBody_state p v)
  | .setNotify p _, _, _, h => serve h fun v => (refl v).modPort p
  | .portReset p named, _, _, h => serve h (portResetBody p named)
  | .deviceReset p, _, _, h => serve_ports h (deviceResetBody_ports p)
  | .claim p mask, _, _, h => serve h (claimBody p mask)
  | .release p mask, _, _, h => serve h (releaseBody p mask)
  | .seize p mask, _, _, h => serve h (seizeBody p mask)
  | .setFallback p item value, _, _, h => serve_ports h fun v => setFallbackBody_ports p v item value
  | .setLiveness p named timeout, _, _, h => serve h (setLivenessBody p named timeout)
  | .readLeases _, _, _, h => serve_ports h fun _ => rfl
  | .openSet p group, _, _, h => serve_ports h fun v => openSetBody_ports p v group
  | .stageLeg p leg record, _, _, h => serveSetWork h fun v => stageLegBody_ports p v leg record
  | .stageGroup p group record, _, _, h => serveSetWork h fun v => stageGroupBody_ports p v group record
  | .unstage p item, _, _, h => serve_ports h fun v => unstageBody_ports p v item
  | .abandon p, _, _, h => serve_ports h (abandonBody_ports p)
  | .seal p form value, _, _, h => serveSetWork h fun v => sealBody_ports p v form value
  | .withdraw p setId, _, _, h => serve_ports h fun v => withdrawBody_ports p v setId
  | .ackSet p setId, _, _, h => serve_ports h fun v => ackSetBody_ports p v setId
  | .setStatus p setId, _, _, h => serve_ports h fun v => setStatusBody_ports p v setId
  | .start p group, _, _, h => serve h (startBody p group)
  | .stop p group form, _, _, h => serve h (stopBody p group form)
  | .configureGroup p group sync out, _, _, h => serve_ports h fun v => configureGroupBody_ports p v group sync out
  | .assignLeg p leg group, _, _, h => serve_ports h fun v => assignLegBody_ports p v leg group
  | .trip p mask, _, _, h => serve h (tripBody p mask)
  | .clearTrip p group, _, _, h => serve h (clearTripBody p group)
  | .mapTrip p input mask time, _, _, h => serve h (mapTripBody p input mask time)
  | .setSafe p leg a b delay, _, _, h => serve_ports h fun v => setSafeBody_ports p v leg a b delay
  | .readActive _ item, _, _, h => serve_ports h fun v => readActiveBody_ports v item
  | .readPending _ item, _, _, h => serve_ports h fun v => readPendingBody_ports v item
  | .readOutputs _, _, _, h => serve_ports h fun _ => rfl

/-! #### The rows that are no command -/

theorem badRequest {p : Port} {bytes : List Byte} (h : execBadRequest p bytes s = .next t) : QueuesFit s t := by
  unfold execBadRequest at h
  split at h
  · split at h
    · exact next h (((refl s).modPort p).modPort p)
    · exact next h (((refl s).modPort p).modPort p)
    all_goals exact next h (refl s)
  · exact next h (refl s)

theorem malformed {p : Port} {cmd len : Byte} (h : execMalformed p cmd len s = .next t) : QueuesFit s t := by
  unfold execMalformed at h
  split at h
  · exact next h ((refl s).modPort p)
  · exact next h (refl s)

theorem selectAsserted {p : Port} (h : execSelectAsserted p s = .next t) : QueuesFit s t := by
  unfold execSelectAsserted at h
  dsimp only at h
  split at h
  · exact next h (((refl s).modPort p).modPort p)
  · exact next h ((refl s).modPort p)

theorem fallbackHalt {g : Group} (h : execFallbackHalt g s = .next t) : QueuesFit s t :=
  inOperation h (ite (fun _ => refl s) fun _ => ite (fun _ => raiseAll (of_ports rfl) _) fun _ => of_ports rfl)

theorem frameEnd {g : Group} (h : execFrameEnd g s = .next t) : QueuesFit s t :=
  onRefclk h (ite (fun _ => endFrame (clocked s) g) fun _ => refl _)

theorem syncEdge {g : Group} {rising : Bool} (h : execSyncEdge g rising s = .next t) : QueuesFit s t := by
  refine onRefclk h (ite (fun _ => refl _) fun _ => ?_)
  refine trans (t := (clocked s).modSync g (SyncState.recognise rising)) (of_ports rfl) ?_
  exact ite (fun _ => (frameStart _ g true).raiseAll _) fun _ => ite (fun _ => endFrame _ g) fun _ => refl _

theorem tripInputLow {i : TripInput} (h : execTripInputLow i s = .next t) : QueuesFit s t := by
  refine trans (t := s.modInput i _) (of_ports rfl) (inOperation h (ite (fun _ => ?_) fun _ => refl _))
  unfold State.sampleLow
  dsimp only
  split
  · exact ite (fun _ => assertInput _ i) fun _ => of_ports rfl
  · exact refl _
  · exact refl _

theorem tripInputQualified {i : TripInput} (h : execTripInputQualified i s = .next t) : QueuesFit s t := by
  refine inOperation h ?_
  split
  · exact ite (fun _ => assertInput s i) fun _ => refl s
  · exact refl s
  · exact refl s

theorem tripInputHigh {i : TripInput} (h : execTripInputHigh i s = .next t) : QueuesFit s t :=
  trans (t := s.modInput i _) (of_ports rfl) (inOperation h (ite (fun _ => of_ports rfl) fun _ => refl _))

theorem clockLost (h : execClockLost s = .next t) : QueuesFit s t := by
  have hclock : QueuesFit s ({ s with monitor := .lost 0, refclkGap := 0 }.raiseAll (.clock false)) :=
    raiseAll (of_ports rfl) _
  exact inOperation h (ite (fun _ => refl s) fun _ => hclock.trans (tripGroups _ _ _))

theorem clockRestored (h : execClockRestored s = .next t) : QueuesFit s t := by
  have hclock : QueuesFit s ({ s with monitor := .present }.raiseAll (.clock true)) := raiseAll (of_ports rfl) _
  exact inOperation h (ite (fun _ => hclock) fun _ => refl s)

theorem enterStartUp (s : State) (straps : BitVec 2) : QueuesFit s (s.enterStartUp straps) :=
  ite (fun _ => of_ports rfl) fun _ => refl s

theorem startUpComplete (h : execStartUpComplete s = .next t) : QueuesFit s t := by
  unfold execStartUpComplete at h
  split at h
  · exact next h (of_queues fun q => by cases q <;> rfl)
  · exact next h (refl s)

theorem event : ∀ {c : Instr}, commandPort c = none → exec c s = .next t → QueuesFit s t
  | .badRequest _ _, _, h => badRequest h
  | .malformed _ _ _, _, h => malformed h
  | .selectAsserted _, _, h => selectAsserted h
  | .selectReleased p whole, _, h => next h (releaseSelect s p whole)
  | .readEventCompleted p, _, h => inOperation (f := fun u => u.completeRead p) h (completeRead s p)
  | .portResetEffect p whole, _, h => next h (releaseSelect s p whole)
  | .deviceResetEffect p whole, _, h => next h (releaseSelect s p whole)
  | .livenessExpiry p, _, h => inOperation h (ite (fun _ => expire s p) fun _ => refl s)
  | .fallbackHalt _, _, h => fallbackHalt h
  | .tick _, _, h => onRefclk h (ite (fun _ => of_ports rfl) fun _ => refl _)
  | .frameEnd _, _, h => frameEnd h
  | .syncEdge _ _, _, h => syncEdge h
  | .tripInputLow _, _, h => tripInputLow h
  | .tripInputQualified _, _, h => tripInputQualified h
  | .tripInputHigh _, _, h => tripInputHigh h
  | .safeWaitExpiry _, _, h => inOperation h (ite (fun _ => of_ports rfl) fun _ => refl s)
  | .clockLost, _, h => clockLost h
  | .restoreCountRestart, _, h => inOperation h (ite (fun _ => of_ports rfl) fun _ => refl s)
  | .clockRestored, _, h => clockRestored h
  | .powerOn straps, _, h => next h (enterStartUp s straps)
  | .powerFail, _, h => next h (enterReset s)
  | .resetnAsserted, _, h => next h (enterReset s)
  | .resetnReleased straps, _, h => next h (enterStartUp s straps)
  | .startUpComplete, _, h => startUpComplete h

/-! #### The idle step -/

theorem happen (s : State) (h : Happening) : QueuesFit s (s.happen h) := by
  cases h with
  | oscillator =>
    refine of_queues fun q => ?_
    rw [State.happen_oscillator, State.enqueueDue_port, State.countTenth_port, State.countMicrosecond_port]
    split <;> rfl
  | refclk => exact of_ports rfl
  | syncPin g high => exact of_ports rfl
  | tripPin i low => exact of_ports rfl
  | sck p high data => exact (refl s).modPort p fun v => by rw [PortState.clockLevel_frame]
  | notice g => exact of_ports rfl

theorem idle (s : State) : QueuesFit s s.idle :=
  ite (fun _ => trans (t := { s with choices := s.choices + 1 }) (of_ports rfl) (happen _ _)) fun _ => refl s

end QueuesFit

theorem step_queuesFit {s t : State} (h : step s = .next t) : QueuesFit s t := by
  unfold step at h
  split at h
  · cases h
    exact .idle s
  next c rest _ =>
  cases hport : commandPort c with
  | some p => exact .command (s := { s with pending := rest }) hport h
  | none => exact .event (s := { s with pending := rest }) hport h

/-- Settles O4: a record joins a queue of fewer than 12 alone, and no other operation adds to one. -/
theorem queueLengthKept : Obligations.QueueLengthKept := fun _ _ hs h => (step_queuesFit h).queueLaw hs

/-! ### SET NOTIFY and the ATTN line -/

/-- In OPERATING the ATTN line is low exactly while a record of an enabled kind is queued (R135). -/
theorem State.attnLine_of_operating {s : State} (hop : s.condition = .operating) (p : Port) : s.attnLine p =
    if ∃ e ∈ (s.port p).queue, (s.port p).notify.getLsbD (e.kind - 1) = true then .low else .high := by
  simp [State.attnLine, State.operating, hop, PortState.attention]

/-- Settles O20: the answer leaves the queue and the new mask, from which the line is read. -/
theorem notifyMaskGovernsAttention : Obligations.NotifyMaskGovernsAttention := by
  intro p mask s hcan
  have hbody : setNotifyBody p mask (s.taking p (.setNotify p mask)) =
      accept ((s.taking p (.setNotify p mask)).modPort p fun q => { q with notify := mask })
        [(s.port p).notify, mask] := by
    simp [setNotifyBody, State.taking_port]
  obtain ⟨t, hans, hframe, hother, hown⟩ := answers_of_effect hcan rfl (c := .setNotify p mask) hbody
  have hport : t.port p = { s.port p with
      notify := mask, timer := (s.port p).restarted, txn := (t.port p).txn, line := (t.port p).line } := by
    rw [hown, State.modPort_port, if_pos rfl, State.taking_port, if_pos rfl]
  refine ⟨t, hans, hframe, fun q hq => ?_, hport, ?_⟩
  · rw [hother q hq, State.modPort_port, if_neg hq, State.taking_port, if_neg hq]
  · rw [State.attnLine_of_operating (hframe ▸ hcan.1), hport]

end Sys2Proof.Machine
end

section
/-! PROOFS. The inspection commands: IDENTIFY, PORT STATUS, READ ACTIVE and READ PENDING.

Each answers from the state as the taking of the command left it, so its bytes are read off the ports, legs, groups and
sets of that state; the item of READ PENDING is found in the one PENDING set that edits it. -/

set_option Elab.async false

namespace Sys2Proof.Machine

/-! ### Codes and layouts -/

theorem SyncMode.code_eq (m : SyncMode) : m.code = syncByte m := by cases m <;> rfl

theorem StopOutput.code_eq (m : StopOutput) : m.code = stopByte m := by cases m <;> rfl

/-- A pattern record is sent in the layout of section 9.7. -/
theorem PatternRecord.bytes_eq (r : PatternRecord) : r.bytes = patternBytes r := by
  simp only [PatternRecord.bytes, halfOf_eq]
  cases hm : r.mode <;> simp [patternBytes, hm, LegMode.code, polarityByte]

/-- A timing record is sent in the layout of section 9.7. -/
theorem TimingRecord.bytes_eq (v : TimingRecord) : v.bytes = timingBytes v := by
  simp [TimingRecord.bytes, timingBytes, halfOf_eq]

/-! ### A command that is taken and changes nothing -/

section taking
variable (s : State) (p q : Port) (c : Instr)

/-- The taking of a command changes the lines and the timer of its own port alone (R102, R147). -/
theorem State.taking_port_eq : (s.taking p c).port q = { s.port q with
    line := ((s.taking p c).port q).line
    timer := if q = p then (s.port p).restarted else (s.port q).timer } := by
  rw [State.taking_port]
  by_cases h : q = p
  · subst h; simp
  · simp [h]

theorem State.taking_heldMask : (s.taking p c).heldMask q = maskOf fun i => decide (s.holder i = some q) :=
  State.modPort_heldMask s p _ q

end taking

/-- A command whose owner accepts it and leaves the state as it took it (R138). -/
theorem answers_ok_of_same {s : State} {p : Port} {c : Instr} {body : State → Reply} {data : List Byte}
    (h : CanTake s p) (hc : exec c s = serve p c body s) (hb : body (s.taking p c) = accept (s.taking p c) data) :
    ∃ t, Answers c p s t .ok data .none ∧ TransactionOnly p s t := answers_of_same h hc hb

/-! ### IDENTIFY and PORT STATUS -/

/-- PORT STATUS of a port that the issuing port may ask for (R141). -/
theorem portStatusBody_accepts {s : State} {p q : Port} {named : Byte} (hq : named.toNat = portNum q)
    (hallowed : q = p ∨ s.supervisor = some p) : portStatusBody p named s = accept s (s.portStatusBytes q) := by
  simp only [portStatusBody, portArg_eq_some.mpr hq, State.isSupervisor_iff, if_pos hallowed]

theorem portStatusBody_notSupervisor {s : State} {p q : Port} {named : Byte} (hq : named.toNat = portNum q)
    (hother : q ≠ p) (hsup : s.supervisor ≠ some p) : portStatusBody p named s = refuse s .notSupervisor [] := by
  simp only [portStatusBody, portArg_eq_some.mpr hq, State.isSupervisor_iff, hother, hsup, or_self, if_false]

/-- Settles O55: the bytes are those of the state, with the timer of the issuing port restarted. -/
theorem identifyAndPortStatus : Obligations.IdentifyAndPortStatus := by
  intro p named s hcan
  refine ⟨?_, fun hbad => refuses_of hcan rfl (by simp [portStatusBody, portArg_eq_none.mpr hbad]), fun q hq =>
    ⟨fun hother hsup => refuses_of hcan rfl (portStatusBody_notSupervisor hq hother hsup), fun hallowed => ?_⟩⟩
  · exact answers_ok_of_same hcan rfl rfl
  · intro timer flag openId
    have htimer : (if q = p then (s.port p).restarted else (s.port q).timer) = timer := rfl
    have hopen : (s.taking p (.portStatus p named)).openSetId q = openId := by
      simp only [State.openSetId, State.openSetOf, State.taking_sets, openId]
      cases s.sets.find? _ <;> rfl
    have hnamed : byteOf (portNum q) = named := by rw [← hq, byteOf_toNat]
    have hbytes := portStatusBody_accepts (s := s.taking p (.portStatus p named)) hq hallowed
    rw [State.portStatusBytes, State.taking_port_eq, htimer, State.taking_heldMask, hopen, hnamed,
      holderCode_eq, Monitor.code_eq, Result.code_eq] at hbytes
    -- A timer that runs gives its count, and one that does not gives 0.
    clear_value timer
    cases timer <;> exact answers_ok_of_same hcan rfl hbytes

/-! ### READ ACTIVE -/

/-- READ ACTIVE of a leg (R142). -/
theorem readActiveBody_leg {s : State} {item : Byte} {l : Leg} (hl : item.toNat = legNum l) : readActiveBody item s =
    accept s ([item, byteOf (groupNum (s.leg l).group)] ++ patternBytes (s.leg l).record ++
      [flagCode (s.leg l).safeA, flagCode (s.leg l).safeB, byteOf (s.leg l).safeDelay] ++
      frameBytes (s.group (s.leg l).group).fn) := by
  have hitem : itemArg item = some (.leg l) := itemArg_of_num hl
  have hnum : byteOf (legNum l) = item := by rw [← hl, byteOf_toNat]
  simp only [readActiveBody, hitem, State.legReadout, hnum, groupCode, PatternRecord.bytes_eq, be32_eq,
    List.cons_append, List.nil_append]

theorem State.pendingIn_length (s : State) (g : Group) :
    (s.pendingIn g).length = s.sets.countP fun c => c.isPending && decide (c.group = g) :=
  List.countP_eq_length_filter.symm

/-- READ ACTIVE of a group (R143). -/
theorem readActiveBody_group {s : State} {item : Byte} {g : Group} (hg : item.toNat = 6 + groupNum g) :
    readActiveBody item s = accept s ([item] ++ timingBytes (s.group g).timing ++
      [syncByte (s.group g).sync, stopByte (s.group g).stopOutput, runByte (s.group g).run] ++
      frameBytes (s.group g).fn ++ numberBytes (s.group g).tick ++ numberBytes (s.group g).remaining ++
      [causesByte (s.group g).causes, byteOf (s.sets.countP fun c => c.isPending && decide (c.group = g))]) := by
  have hitem : itemArg item = some (.group g) := itemArg_of_num hg
  have hnum : (Item.group g).code = item := by rw [Item.code, Item.num, ← hg, byteOf_toNat]
  simp only [readActiveBody, hitem, State.groupReadout, hnum, TimingRecord.bytes_eq, SyncMode.code_eq,
    StopOutput.code_eq, RunState.code_eq, be32_eq, halfOf_eq, CauseSet.code_eq, State.pendingIn_length,
    List.cons_append, List.nil_append]

/-! ### READ PENDING -/

/-- Of the PENDING sets, one alone edits an item (R72). -/
theorem PendingItemLaw.eq_of_hasEdit {s : State} (h : PendingItemLaw s) {c k : ChangeSet} {i : Item}
    (hc : c ∈ s.sealed) (hk : k ∈ s.sealed) (hci : c.hasEdit i = true) (hki : k.hasEdit i = true) : k = c := by
  have hsymm : Std.Symm fun a b : ChangeSet => ∀ i, ¬(a.hasEdit i = true ∧ b.hasEdit i = true) :=
    ⟨fun _ _ hab i hba => hab i hba.symm⟩
  by_contra hne
  exact (pendingItemLaw_iff.mp h).forall hk hc hne i ⟨hki, hci⟩

theorem PendingItemLaw.pendingSetOf_eq_some {s : State} (h : PendingItemLaw s) {c : ChangeSet} {i : Item}
    (hc : c ∈ s.sets) (hpend : c.isPending = true) (hi : c.hasEdit i = true) : s.pendingSetOf i = some c :=
  find?_of_unique _ _ c hc (by simp [hpend, hi]) fun k hk hf => by
    obtain ⟨hkp, hki⟩ := Bool.and_eq_true_iff.mp hf
    exact h.eq_of_hasEdit (State.mem_sealed.mpr ⟨hc, hpend⟩) (State.mem_sealed.mpr ⟨hk, hkp⟩) hi hki

theorem editBytes_leg {c : ChangeSet} (hn : (c.edits.map Edit.item).Nodup) {l : Leg} {r : PatternRecord}
    (he : .leg l r ∈ c.edits) : editBytes (some c) (.leg l) = patternBytes r := by
  simp [editBytes, (stagedLeg_eq_some_iff hn).mpr he, PatternRecord.bytes_eq]

theorem editBytes_group {c : ChangeSet} (hn : (c.edits.map Edit.item).Nodup) {g : Group} {v : TimingRecord}
    (he : .group g v ∈ c.edits) : editBytes (some c) (.group g) = timingBytes v := by
  simp [editBytes, (stagedTiming_eq_some_iff hn).mpr he, TimingRecord.bytes_eq]

/-- READ PENDING of an item that no PENDING set edits (R144, R161). -/
theorem readPendingBody_of_none {s : State} {item : Byte} {i : Item} (hi : item.toNat = i.num)
    (hnone : s.pendingSetOf i = none) : readPendingBody item s = accept s
      ([0, 0, 0xFF, 0xFF] ++ be32 0 ++ be32 0 ++ editBytes none i) := by
  simp only [readPendingBody, itemArg_of_num hi, hnone]

/-- READ PENDING of an item that a PENDING set edits (R144). -/
theorem readPendingBody_of_some {s : State} {item : Byte} {i : Item} {c : ChangeSet} (hi : item.toNat = i.num)
    (hc : s.pendingSetOf i = some c) : readPendingBody item s = accept s
      ([1, byteOf c.id, byteOf (portNum c.owner), byteOf (groupNum c.group)] ++ frameBytes c.target ++
        frameBytes (s.group c.group).fn ++ editBytes (some c) i) := by
  simp only [readPendingBody, itemArg_of_num hi, hc, be32_eq, groupCode]

/-- Settles O56: the readouts of a leg and of a group, and the one PENDING edit of an item or the absent values. -/
theorem readActiveAndReadPending : Obligations.ReadActiveAndReadPending := by
  intro p item s hcan
  refine ⟨fun hbad => refuses_of hcan rfl (by simp [readActiveBody, itemArg_eq_none hbad]), fun l hl => ?_,
    fun g hg => ?_, fun hbad => refuses_of hcan rfl (by simp [readPendingBody, itemArg_eq_none hbad]), fun i hi =>
    ⟨fun hnone => ?_, fun c hc htable hpend hcp e he hei => ?_⟩⟩
  · exact answers_ok_of_same hcan rfl (readActiveBody_leg hl)
  · exact answers_ok_of_same hcan rfl (readActiveBody_group hg)
  · have hbody := readPendingBody_of_none (s := s.taking p (.readPending p item)) hi (State.pendingSetOf_eq_none hnone)
    cases i with
    | leg l => exact answers_ok_of_same hcan rfl hbody
    | group g => exact answers_ok_of_same hcan rfl hbody
  · have hhas : c.hasEdit i = true := ChangeSet.hasEdit_iff.mpr ⟨e, he, hei⟩
    have hbody := readPendingBody_of_some (s := s.taking p (.readPending p item)) hi
      (hpend.pendingSetOf_eq_some hc hcp hhas)
    cases e with
    | leg l r =>
      obtain rfl : i = .leg l := hei.symm
      rw [editBytes_leg (htable.single c hc) he] at hbody
      exact answers_ok_of_same hcan rfl hbody
    | group g v =>
      obtain rfl : i = .group g := hei.symm
      rw [editBytes_group (htable.single c hc) he] at hbody
      exact answers_ok_of_same hcan rfl hbody

end Sys2Proof.Machine
end

section
/-! PROOFS. Requests read back as they were sent, the release of SSx, the conditions of the part, and the step. -/

set_option Elab.async false

namespace Sys2Proof

/-! ### Requests -/

/-- A four-byte field is read as it was written. -/
theorem word_be32 (w : Frame) :
    word (w.extractLsb' 24 8) (w.extractLsb' 16 8) (w.extractLsb' 8 8) (w.extractLsb' 0 8) = w := by
  have join (start len : Nat) : w.extractLsb' (start + 8) len ++ w.extractLsb' start 8 = w.extractLsb' start (len + 8) :=
    BitVec.extractLsb'_append_extractLsb'_eq_extractLsb' rfl
  calc w.extractLsb' 24 8 ++ w.extractLsb' 16 8 ++ w.extractLsb' 8 8 ++ w.extractLsb' 0 8
      = w.extractLsb' 16 16 ++ w.extractLsb' 8 8 ++ w.extractLsb' 0 8 := by rw [join 16 8]
    _ = w.extractLsb' 8 24 ++ w.extractLsb' 0 8 := by rw [join 8 16]
    _ = w.extractLsb' 0 32 := join 0 24
    _ = w := BitVec.extractLsb'_eq_self

/-- A command of a port has a code and argument bytes (section 9.6). -/
theorem exists_commandBytes {c : Instr} {p : Port} (hp : commandPort c = some p) :
    ∃ cmd args, commandBytes c = some (cmd, args) := by
  cases c <;> cases hp <;> exact ⟨_, _, rfl⟩

/-- The code and the argument bytes of a command are read as that command; the records and the target are read from their
fields (section 9.7). -/
theorem parseCommand_commandBytes {c : Instr} {p : Port} {cmd : Byte} {args : List Byte} (hp : commandPort c = some p)
    (hbytes : commandBytes c = some (cmd, args)) : parseCommand p cmd.toNat args = some c := by
  cases c <;> cases hp <;> cases hbytes
  case stageLeg.refl.refl leg r => simp [parseCommand, be16, half_be16]
  case stageGroup.refl.refl group r => simp [parseCommand, be16, half_be16]
  any_goals rfl
  -- SEAL is left, with its four-byte target.
  simp [parseCommand, be32, word_be32]

/-- The command table has the LEN of every command (section 9.6). -/
theorem commandLength_commandBytes {c : Instr} {cmd : Byte} {args : List Byte}
    (h : commandBytes c = some (cmd, args)) : commandLength cmd = some args.length := by
  cases c <;> cases h <;> rfl

/-- Every LEN of the command table is at most that of STAGE LEG (section 9.6). -/
theorem le_of_commandLength_eq_some {cmd : Byte} {n : Nat} (h : commandLength cmd = some n) : n ≤ 13 := by
  have hall : ∀ row ∈ commandTable, row.2 ≤ 13 := by decide
  obtain ⟨before, after, htable, -⟩ := List.lookup_eq_some_iff.mp h
  exact hall (cmd.toNat, n) (by simp [htable])

/-- A framed request whose bytes pass every check of R149 is good. -/
theorem classifyRequest_frameRequest {c : Instr} {p : Port} {cmd : Byte} {args : List Byte}
    (hlen : commandLength cmd = some args.length) (hparse : parseCommand p cmd.toNat args = some c) :
    classifyRequest p (frameRequest cmd args) = .good c := by
  have hle : args.length ≤ 13 := le_of_commandLength_eq_some hlen
  have hlenByte : (BitVec.ofNat 8 args.length).toNat = args.length := by
    rw [BitVec.toNat_ofNat]
    omega
  have hsum := byteSum_frameRequest cmd args
  simp only [frameRequest, List.cons_append] at hsum ⊢
  simp [classifyRequest, hlenByte, hsum, hlen, hparse, show ¬16 < args.length by omega]

/-- Settles O12: what the encoder writes passes the checks and is parsed back. -/
theorem requestsAreReadAsSent : Obligations.RequestsAreReadAsSent := by
  intro c p hp
  obtain ⟨cmd, args, hbytes⟩ := exists_commandBytes hp
  have hgood := classifyRequest_frameRequest (commandLength_commandBytes hbytes) (parseCommand_commandBytes hp hbytes)
  exact ⟨frameRequest cmd args, by rw [encodeRequest, hbytes]; rfl, hgood⟩

end Sys2Proof

namespace Sys2Proof.Machine

/-! ### The release of SSx -/

section modPort
variable {s : State} {p : Port} {f g : PortState → PortState}

theorem State.modPort_congr (h : f (s.port p) = g (s.port p)) : s.modPort p f = s.modPort p g := by
  refine congrArg (fun ports => { s with ports := ports }) (PerPort.ext_get fun k => ?_)
  by_cases hk : k = p
  · subst hk; simp [h]
  · simp [hk]

theorem State.modPort_modPort : (s.modPort p f).modPort p g = s.modPort p fun q => g (f q) := by cases p <;> rfl

end modPort

/-- What the release of SSx records of a port in OPERATING, by the state its transaction ended in, where no reset waits and
no READ EVENT is completed by the release (R151, R152). -/
def PortState.RecordsAtRelease (q : PortState) (whole : Bool) (r : Result) (how : PrevResponse) : Prop :=
  q.txn = .request ∧ r = .truncated ∧ how = .cut ∨
  q.txn = .discard true ∧ r = .malformed ∧ how = .cut ∨
  (q.txn = .discard false ∨ q.txn = .deselected) ∧ r = q.prevResult ∧ how = q.prevResponse ∨
  (∃ resp after, q.txn = .response resp after ∧ r = resp.result ∧
    (after = .none ∧ how = (if whole = true then .complete else .cut) ∨ after = .completed ∧ how = .complete ∨
      (after = .readHead ∨ ∃ d, after = .readEmpty d) ∧ whole = false ∧ how = .cut))

section release
variable {s : State} {p : Port}

/-- The release ends the transaction with what is recorded of it (R152). -/
theorem State.releaseSelect_of_records (hop : s.condition = .operating) {whole : Bool} {r : Result} {how : PrevResponse}
    (h : (s.port p).RecordsAtRelease whole r how) :
    s.releaseSelect p whole = (s.modPort p PortState.release).endTxn p r how := by
  simp only [State.releaseSelect, State.operating, hop, decide_true, if_true]
  obtain ⟨htxn, rfl, rfl⟩ | ⟨htxn, rfl, rfl⟩ | ⟨htxn | htxn, rfl, rfl⟩ | ⟨resp, after, htxn, rfl, hafter⟩ := h
  · rw [htxn]
  · rw [htxn]
  · simp only [htxn]
    exact State.modPort_congr (by simp [PortState.release])
  · simp only [htxn]
    rw [State.endTxn, State.modPort_modPort]
    refine State.modPort_congr (f := PortState.release) ?_
    rw [← htxn]; rfl
  · obtain ⟨rfl, rfl⟩ | ⟨rfl, rfl⟩ | ⟨rfl | ⟨d, rfl⟩, rfl, rfl⟩ := hafter
    · have hnothing : (s.modPort p PortState.release).completeRead p = s.modPort p PortState.release := by
        simp [State.completeRead, PortState.release, htxn]
      simp only [htxn, hnothing, ite_self, prevOf]
    · rw [htxn]
    · rw [htxn]; rfl
    · rw [htxn]; rfl

/-- A READ EVENT response has yet to be clocked out whole (R130, R131). -/
def PortState.AwaitsRead (q : PortState) (resp : Response) : Prop :=
  q.txn = .response resp .readHead ∨ ∃ d, q.txn = .response resp (.readEmpty d)

theorem State.completeRead_condition : (s.completeRead p).condition = s.condition := by
  unfold State.completeRead State.freeReported
  repeat' split
  all_goals rfl

/-- The completion and the release do not touch the same fields of a port. -/
theorem State.completeRead_release :
    (s.modPort p PortState.release).completeRead p = (s.completeRead p).modPort p PortState.release := by
  have htxn : ((s.modPort p PortState.release).port p).txn = (s.port p).txn := by simp [PortState.release]
  have hqueue : ((s.modPort p PortState.release).port p).queue = (s.port p).queue := by simp [PortState.release]
  simp only [State.completeRead, htxn, hqueue, State.freeReported]
  repeat' split
  all_goals cases p <;> rfl

theorem State.completeRead_txn {resp : Response} (h : (s.port p).AwaitsRead resp) :
    ((s.completeRead p).port p).txn = .response resp .completed := by
  obtain htxn | ⟨d, htxn⟩ := h
  · simp only [State.completeRead, htxn, State.freeReported]
    repeat' split
    all_goals cases p <;> rfl
  · simp [State.completeRead_of_empty htxn]

/-- A release that finds a READ EVENT response clocked out whole completes it first (log entry 9). -/
theorem State.releaseSelect_of_awaitsRead (hop : s.condition = .operating) {resp : Response}
    (h : (s.port p).AwaitsRead resp) : s.releaseSelect p true = (s.completeRead p).releaseSelect p true := by
  have hcompleted : s.releaseSelect p true =
      ((s.modPort p PortState.release).completeRead p).endTxn p resp.result .complete := by
    obtain htxn | ⟨d, htxn⟩ := h <;> simp [State.releaseSelect, State.operating, hop, htxn, prevOf]
  have hlater := State.releaseSelect_of_records (s := s.completeRead p) (whole := true) (r := resp.result)
    (how := .complete) (State.completeRead_condition.trans hop)
    (.inr (.inr (.inr ⟨resp, .completed, State.completeRead_txn h, rfl, .inr (.inl ⟨rfl, rfl⟩)⟩)))
  rw [hcompleted, State.completeRead_release, hlater]

end release

/-- Settles O15: the record of each transaction state, the three rows that are one release, and the release outside
OPERATING. -/
theorem releaseRecordsTheTransaction : Obligations.ReleaseRecordsTheTransaction := by
  intro p whole s
  refine ⟨fun r how hop hrecords => ⟨s.releaseSelect p whole, rfl, ?_⟩, rfl, rfl, fun resp hop hawaits =>
    ⟨s.completeRead p, inOperation_of_operating (fun u => u.completeRead p) hop,
      congrArg Host.Outcome.next (State.releaseSelect_of_awaitsRead hop hawaits)⟩,
    fun hout => ⟨s.releaseSelect p whole, rfl, ?_⟩⟩
  · rw [State.releaseSelect_of_records hop hrecords]
    refine ⟨rfl, fun q hq => ?_, ?_⟩
    · simp [State.endTxn, hq]
    · simp [State.endTxn, PortState.release]
  · rw [State.releaseSelect_of_not_operating hout]
    refine ⟨rfl, fun q hq => ?_, ?_⟩
    · simp [hq]
    · simp [PortState.release]

/-! ### The conditions of the part -/

/-- The supervisor that the straps SUPSEL1:0 name (R163). -/
theorem strapValue_eq (straps : BitVec 2) : strapValue straps =
    if straps = 0 then some .p0 else if straps = 1 then some .p1 else if straps = 2 then some .p2 else none := by
  revert straps
  decide

/-- Each port and each input at its power-on values, with its pins as they were (R162). -/
theorem State.enterReset_port (s : State) (q : Port) : s.enterReset.port q = { State.reset.port q with
    selectLow := (s.port q).selectLow
    line := { (State.reset.port q).line with clockHigh := (s.port q).line.clockHigh } } := by
  cases q <;> rfl

theorem State.enterReset_input (s : State) (i : TripInput) :
    s.enterReset.input i = { State.reset.input i with pinLow := (s.input i).pinLow } := by
  cases i <;> rfl

/-- Settles O59: START-UP with the straps' supervisor, the entry to OPERATING, and RESET. -/
theorem powerMovesTheCondition : Obligations.PowerMovesTheCondition := by
  intro s straps
  refine ⟨fun hreset c hc => ?_, fun hstart => ?_, fun c hc => ?_⟩
  · have hexec : exec c s = .next (s.enterStartUp straps) := by rcases hc with rfl | rfl <;> rfl
    rw [hexec, State.enterStartUp, if_pos hreset, strapValue_eq]
  · refine ⟨s.enterOperating, if_pos hstart, fun q => ?_, fun i => ?_, rfl⟩
    · cases q <;> rfl
    · cases i <;> rfl
  · have hexec : exec c s = .next s.enterReset := by rcases hc with rfl | rfl <;> rfl
    exact ⟨s.enterReset, hexec, s.enterReset_port, s.enterReset_input, rfl⟩

/-! ### The step -/

/-- Settles O1: a step takes the front row from the queue (R153). -/
theorem stepRunsTheFrontCommand : Obligations.StepRunsTheFrontCommand := by
  intro c rest s hfront
  rw [step, hfront]

end Sys2Proof.Machine
end
